-- ==== Sys2Proof/Word.lean ====
section
/-! DEFINITION. The word types of the station: bytes of frames, words of the local port, and the 32-bit values of
rotations, frame checks and the stream check. -/

namespace Sys2Proof

/-- A byte of a frame, a host tag, a profile check. -/
abbrev Byte := BitVec 8

/-- A word of the local port; a resource number, a lease or a patience (R20, R180). -/
abbrev Word16 := BitVec 16

/-- A rotation number, a frame check or the stream check (R66, R87). -/
abbrev Word32 := BitVec 32

end Sys2Proof
end

