-- ==== Sys2Proof/Syntax.lean ====
section
/-! DEFINITION. The commands of the station: one constructor per row of spec/opcode_table.json. -/

namespace Sys2Proof

/-- The commands the station takes, from its host, its pins, the group line and its own timing. -/
inductive Instr where
  /-- ENABLE: code 1 written to CMD (R143). -/
  | enable
  /-- LEAVE: code 2 written to CMD (R148). -/
  | leave
  /-- DISABLE: code 3 written to CMD (R154). -/
  | disable
  /-- PORT_RESET: code 4 written to CMD (R155). -/
  | portReset
  /-- POST: code 5 written to CMD (R157). -/
  | post
  /-- CANCEL: code 6 written to CMD (R167). -/
  | cancel
  /-- POP: code 7 written to CMD (R177). -/
  | pop
  /-- CLEAR_LOST: code 8 written to CMD (R178). -/
  | clearLost
  /-- INQUIRE: code 9 written to CMD (R16). -/
  | inquire
  /-- BADCMD: a write to CMD of a `code` that names no command (R183). -/
  | badCmd (code : Word16)
  /-- ROTHI_READ: a read of ROTHI (R181). -/
  | rothiRead
  /-- CONFIG_WRITE: `data` written to CONFIG (R182). -/
  | configWrite (data : Word16)
  /-- IRQEN_WRITE: `data` written to IRQEN (R182). -/
  | irqenWrite (data : Word16)
  /-- REGISTER_WRITE: `data` written at `addr` (R180, R183). -/
  | registerWrite (addr : BitVec 5) (data : Word16)
  /-- PIN_RESET: RESET goes low, with `sn` on SN3-SN0 (R155, R141). -/
  | pinReset (sn : BitVec 4)
  /-- ACTIVITY_BEGINS: activity starts on the line (R88, R104). -/
  | activityBegins
  /-- ITEM_DELIVERY: sixteen bit times of quiet after an item (R105). -/
  | itemDelivery
  /-- SKIP_POINT: the skip timer reaches 64 (R92). -/
  | skipPoint
  /-- LISTEN_WINDOW_EXPIRY: the listen window completes (R99). -/
  | listenWindowExpiry
  /-- FRAME_START: the moment at which the station begins a frame (R96). -/
  | frameStart
  /-- TRANSMISSION_END: the last bit of the frame check has been sent (R109). -/
  | transmissionEnd
  /-- LOOPBACK_MISMATCH: a heard bit disagrees with the sent bit (R110). -/
  | loopbackMismatch
  /-- ALIGNMENT_LOSS: the lone-turn count stands at 2N (R98). -/
  | alignmentLoss
  /-- JOIN_STALL: the joiner's stall count stands at 3 (R122). -/
  | joinStall
  /-- REPLAY_ENTRY: XFU hands the oldest catch-up entry to CMU (R128). -/
  | replayEntry
  /-- ACTIVITY_STOPS: a bit time with no transition; `bits` are those LIF collected in the activity (R104). -/
  | activityStops (bits : List Bool)
  /-- RESET_RELEASE: RESET rises (R155). -/
  | resetRelease
deriving DecidableEq, Repr

end Sys2Proof
end

