-- ==== Sys2Proof/Config.lean ====
section
/-! DEFINITION. The limits of the part, as the table "Principal Limits" of spec/00_scope.md and the chapters give them.
The spec leaves no value undefined, so there is no free value here. -/

namespace Sys2Proof.Config

/-- Resource record slots (R1). -/
abbrev recordSlots : Nat := 64
/-- Claim records in the pool (R6). -/
abbrev claimPool : Nat := 128
/-- Claims of one station, the quota (R7). -/
abbrev quota : Nat := 32
/-- The largest lease, and the patience that waits without limit (R4, R30). -/
abbrev maxLease : Nat := 4095
/-- Operations in one MEMBER frame, and the in-flight list (R20, R156). -/
abbrev maxOps : Nat := 8
/-- Requests that may be live at once (R160). -/
abbrev requestPlaces : Nat := 32
/-- Records the notification queue holds (R171). -/
abbrev queuePlaces : Nat := 64
/-- Where the lost count and the hole count stop rising (R176, R69). -/
abbrev countLimit : Nat := 65535
/-- Entries the catch-up queue holds (R124). -/
abbrev catchupPlaces : Nat := 48
/-- Rotations a join may last after its start (R60). -/
abbrev joinLimit : Nat := 8
/-- The joiner's stall limit (R122). -/
abbrev stallLimit : Nat := 3
/-- Transfer frames in one turn (R93, R135). -/
abbrev transfersPerTurn : Nat := 8
/-- Snapshot items in one transfer frame (R115, R135). -/
abbrev itemsPerTransfer : Nat := 4
/-- Slots of the assembly map (R119). -/
abbrev snapshotItems : Nat := 65
/-- Bytes of the longest item LIF stores (R104). -/
abbrev longestItem : Nat := 641
/-- Bytes of the shortest frame (R106). -/
abbrev shortestFrame : Nat := 29
/-- Bit times of quiet that end an item (R88). -/
abbrev itemQuiet : Nat := 16
/-- Bit times of quiet at a skip point (R92). -/
abbrev skipQuiet : Nat := 64
/-- Bit times of the longest turn (R94). -/
abbrev longestTurn : Nat := 42000
/-- The stagger of the listen window, in bit times for each station number (R99). -/
abbrev windowStagger : Nat := 1024

end Sys2Proof.Config
end

