-- ==== Sys2Proof/Machine/State.lean ====
section
/-! DEFINITION. The state of the station as plain data: one structure per block of the block overview (spec/00), the
records, claims, frames and items they hold, and the state after reset. -/

namespace Sys2Proof.Machine

/-- No rule of the spec stops the station, so there is no fault. (A "fault" of the spec is an item on the line.) -/
inductive Fault where
deriving DecidableEq, Repr

/-- Why a command has no meaning. -/
inductive Refusal where
  /-- Raised by an arm of `exec` whose command is not modelled; no arm raises it. Safe: the run stops. -/
  | notModelled (mnemonic : String)
deriving DecidableEq, Repr

/-! ### The resource table (chapter 1) -/

/-- The mode of a claim or a request (R4). -/
inductive Mode where
  | shared | exclusive
deriving DecidableEq, Repr

/-- Which list of its record a claim is in (R4). -/
inductive ClaimState where
  | holding | waiting
deriving DecidableEq, Repr

/-- A claim record. Its state is the list it stands in (R4); `expiry` none is an expiry that is none (R5). -/
structure Claim where
  station : Nat
  mode : Mode
  tag : Byte
  lease : Word16
  expiry : Option Word32
deriving DecidableEq, Repr

/-- A resource record: holders in grant order, waiters oldest first (R1, R2, R3). -/
structure ResRecord where
  resource : Word16
  holders : List Claim
  waiters : List Claim
deriving DecidableEq, Repr

/-- A roster entry with the fields that are meaningful in its state (R48). -/
inductive RosterEntry where
  /-- NONE -/
  | vacant
  /-- JOINING -/
  | joining (start : Word32) (donor : Nat)
  /-- MEMBER -/
  | member (lastSeen : Word32)
deriving DecidableEq, Repr

/-- The Table Unit. `records` stand in ascending resource number; slots are not observable (R1). -/
structure Tbu where
  records : List ResRecord
  inUse : Nat
  free : Nat
  counts : Vector Nat 16
  roster : Vector RosterEntry 16
  lastApplied : Option Word32
deriving DecidableEq, Repr

/-! ### Frames and items (chapters 2, 6 and 7) -/

/-- The kinds of operation (R20). -/
inductive OpKind where
  | acquire | release | renew | withdraw | downgrade
deriving DecidableEq, Repr

/-- A request record, and the operation entry it becomes (R20, R156). An ignored field is 0 or none (R21, R158). -/
structure Request where
  kind : OpKind
  mode : Option Mode
  tag : Byte
  resource : Word16
  lease : Word16
  patience : Word16
deriving DecidableEq, Repr

/-- The kinds of stream frame (R112). -/
inductive StreamKind where
  | found | member | join | loading | ready | leave
deriving DecidableEq, Repr

/-- The kinds of frame (R106). -/
inductive FrameKind where
  | stream (k : StreamKind)
  | transfer
deriving DecidableEq, Repr

/-- A frame identity. -/
structure FrameId where
  rotation : Word32
  sender : Nat
deriving DecidableEq, Repr

/-- A frame named by its identity and its frame check: an echo, L, last heard (R66, R70). -/
structure FrameRef where
  id : FrameId
  check : Word32
deriving DecidableEq, Repr

/-- A stream frame with its fields (R112); `check` is its frame check. -/
structure StreamFrame where
  kind : StreamKind
  sender : Nat
  rotation : Word32
  moreFollows : Bool
  echo : Option FrameRef
  streamCheck : Option Word32
  wanted : Nat
  ops : List Request
  check : Word32
deriving DecidableEq, Repr

/-- The roster item of a snapshot (R116, R133). -/
structure RosterItem where
  lastApplied : Word32
  streamCheck : Word32
  last : FrameRef
  entries : List RosterEntry
deriving DecidableEq, Repr

/-- A snapshot item (R116). -/
inductive SnapItem where
  | roster (r : RosterItem)
  | record (r : ResRecord)
deriving DecidableEq, Repr

/-- A transfer frame with its fields (R115). -/
structure TransferFrame where
  sender : Nat
  moreFollows : Bool
  joiner : Nat
  snapRotation : Word32
  donorRotation : Word32
  first : Nat
  total : Nat
  items : List SnapItem
  check : Word32
deriving DecidableEq, Repr

/-- A frame of the line. -/
inductive Frame where
  | stream (f : StreamFrame)
  | transfer (t : TransferFrame)
deriving DecidableEq, Repr

/-- What a block needs to know of a transmission of the station's own: its identity, its kind, and whether it was a
MEMBER frame without operations (R69, R78). -/
structure OwnItem where
  id : FrameId
  kind : FrameKind
  bare : Bool
deriving DecidableEq, Repr

/-! ### The Line Interface (chapter 6) -/

/-- The receiver (R104). -/
inductive Receiver where
  | off | quiet | active | trailing
deriving DecidableEq, Repr

/-- The transmitter (R109); TXE is asserted while SENDING. -/
inductive Transmitter where
  | idle | sending
deriving DecidableEq, Repr

/-- The item LIF is collecting (R104, R105, R110). -/
structure LineItem where
  /-- the bits stored so far, at most 641 bytes of them -/
  bits : List Bool
  /-- the item went on beyond 641 bytes -/
  tooLong : Bool
  /-- ENABLE found the activity under way -/
  missedStart : Bool
  /-- TXE was asserted during the item -/
  own : Bool
  /-- a heard bit disagreed with the sent one -/
  mismatch : Bool
  /-- the moment of the last transition, noted when the activity stops -/
  endAt : Option Nat
deriving DecidableEq, Repr

/-- The Line Interface (R103, R104, R109, R118). The rate is the one taken at ENABLE (R103), and none while HALTED (DESIGN
CHOICE, log 31). -/
structure Lif where
  receiver : Receiver
  item : LineItem
  transmitter : Transmitter
  sent : Option Frame
  profile : Option Byte
  rate : Option (BitVec 2)
  profileReported : Bool
  duplicateReported : Bool
deriving DecidableEq, Repr

/-! ### The Turn Tracker (chapter 5) -/

/-- The station's own part in the current turn (R87). -/
inductive OwnPhase where
  | idle | waiting | transmitting
deriving DecidableEq, Repr

/-- The Turn Tracker (R87). A timer is none while stopped. -/
structure Trk where
  rotation : Word32
  holder : Option Nat
  aligned : Bool
  reference : Option Nat
  skipTimer : Option Nat
  moreFollows : Bool
  transfers : Nat
  lone : Nat
  window : Option Nat
  phase : OwnPhase
deriving DecidableEq, Repr

/-! ### The Commit Unit (chapter 4) -/

/-- The own mark (R66, R78). `hole` says whether the item it names is an own hole rather than P. -/
structure OwnMark where
  id : FrameId
  kind : FrameKind
  hole : Bool
deriving DecidableEq, Repr

/-- The Commit Unit: L, C, P and the rest of R66. -/
structure Cmu where
  last : Option FrameRef
  check : Word32
  waiting : Option StreamFrame
  holes : Nat
  discordance : Nat
  discordSender : Option Nat
  ownMark : Option OwnMark
  lastHeard : Option FrameRef
  foundReported : Bool
deriving DecidableEq, Repr

/-! ### The Request Unit (chapter 9) -/

/-- The Request Unit (R156). -/
structure Rqu where
  outgoing : List Request
  inflight : List Request
  carrier : Option FrameId
  live : List Byte
deriving DecidableEq, Repr

/-! ### Notifications (chapter 10) -/

/-- Station states (R140). -/
inductive StationState where
  | halted | listening | founding | joining | loading | member | leaving | detached
deriving DecidableEq, Repr

/-- Reasons of a STATE record (R142, R174). -/
inductive StateReason where
  | enabled | founding | founded | collided | absent | joinSent | loading | member | joinFailed | leaving | left
  | diverged | halted
deriving DecidableEq, Repr

/-- Why a join attempt failed (R132). -/
inductive JoinFailure where
  | diverged | stall | catchupFull | removed
deriving DecidableEq, Repr

/-- Refusal reasons of an operation (R43). -/
inductive RefusalReason where
  | alreadyHeld | alreadyWaiting | quota | claimsFull | tableFull | notHeld | notWaiting | notExclusive
deriving DecidableEq, Repr

/-- The cause of a divergence (R84). -/
inductive DivergeCause where
  | missed | discordant
deriving DecidableEq, Repr

/-- The detail of a FOREIGN record (R82, R107, R108). -/
inductive ForeignDetail where
  | profile (received : Byte)
  | found (sender : Nat)
  | duplicate
deriving DecidableEq, Repr

/-- Kinds of notification (R173, R174). -/
inductive NoteKind where
  | granted | queued | busy | refused | released | renewed | withdrawn | downgraded | cancelled | aborted | timedOut
  | expired | lost | state | diverged | foreign
deriving DecidableEq, Repr

/-- The detail field of a record (R172 to R174). -/
inductive Detail where
  /-- the kind carries no detail -/
  | absent
  /-- GRANTED and RENEWED: the expiry, or none -/
  | expiry (e : Option Word32)
  /-- QUEUED: the position -/
  | position (n : Nat)
  /-- REFUSED: the reason -/
  | reason (r : RefusalReason)
  /-- STATE: the new state, the reason and, for JOIN_FAILED, the failure reason -/
  | state (st : StationState) (r : StateReason) (f : Option JoinFailure)
  /-- DIVERGED: the cause -/
  | cause (c : DivergeCause)
  /-- FOREIGN: what was noticed -/
  | foreign (f : ForeignDetail)
deriving DecidableEq, Repr

/-- A notification record (R172). -/
structure Note where
  kind : NoteKind
  tag : Option Byte
  resource : Option Word16
  mode : Option Mode
  rotation : Word32
  detail : Detail
deriving DecidableEq, Repr

/-- The Notification Queue (R171). -/
structure Ntq where
  queue : List Note
  lost : Nat
  overflow : Bool
  head : Option Note
deriving DecidableEq, Repr

/-! ### The Transfer Unit (chapter 7) -/

/-- Where the joiner stands in its attempt (R119). -/
inductive JoinPhase where
  | idle | awaiting | gathering | replaying | confirming
deriving DecidableEq, Repr

/-- The station's own latest JOIN while its fate is unknown (R119); the check is none until the loopback (R120). -/
structure JoinMark where
  id : FrameId
  check : Option Word32
deriving DecidableEq, Repr

/-- An entry of the catch-up queue (R119, R124): a frame copy, marked as own or not, or a hole marker, with what the
station sent when the hole is its own. -/
inductive CatchEntry where
  | frame (f : StreamFrame) (own : Bool)
  | hole (own : Option OwnItem)
deriving DecidableEq, Repr

/-- A donor's snapshot image (R133): identity (the JOIN's rotation and the joiner) and items. -/
structure Image where
  rotation : Word32
  joiner : Nat
  items : List SnapItem
deriving DecidableEq, Repr

/-- What governs a serving donor's turn (R135, R137): the image that stood at the stream frame's start, the next index
to send, and the transfer frames sent so far. -/
structure ServePlan where
  image : Image
  next : Nat
  frames : Nat
deriving DecidableEq, Repr

/-- The Transfer Unit (R119). -/
structure Xfu where
  phase : JoinPhase
  joinMark : Option JoinMark
  catchup : List CatchEntry
  snapshot : Option FrameRef
  map : Vector (Option SnapItem) 65
  total : Option Nat
  wanted : Nat
  stall : Nat
  image : Option Image
  joinerWanted : Nat
  plan : Option ServePlan
deriving DecidableEq, Repr

/-! ### Station control (chapter 8) and the local port (chapter 11) -/

/-- The leave phase (R140, R150). -/
inductive LeavePhase where
  | idle | draining | sent
deriving DecidableEq, Repr

/-- The configuration copy (R140, R182). -/
structure ConfigCopy where
  n : BitVec 5
  rate : BitVec 2
  m : BitVec 3
deriving DecidableEq, Repr

/-- The Station Controller (R140). -/
structure Stc where
  station : StationState
  leave : LeavePhase
  config : ConfigCopy
  strap : BitVec 4
deriving DecidableEq, Repr

/-- Result codes (R183). -/
inductive Result where
  | none | ok | badState | badConfig | badArg | tagBusy | qFull | inFlight | notFound | empty | badCmd
deriving DecidableEq, Repr

/-- The Local Port (R180 to R185). -/
structure Lpt where
  writeIgnored : Bool
  irqNonEmpty : Bool
  irqOverflow : Bool
  cmd : Word16
  result : Result
  stage0 : Word16
  stage1 : Word16
  stage2 : Word16
  stage3 : Word16
  inqKey : Word16
  inq0 : Word16
  inq1 : Word16
  inq2 : Word16
  latch : Word16
  /-- the word driven on D15-D0 by the latest ROTHI read, none before there was one; the model's own field -/
  readData : Option Word16
deriving DecidableEq, Repr

/-- The pins whose level outlives a command: RESET low, and activity on the line. -/
structure Pins where
  resetLow : Bool
  lineActive : Bool
deriving DecidableEq, Repr

/-- The station, with the model's own clock of idle bit times and the queue of waiting commands. -/
structure State where
  lif : Lif
  trk : Trk
  cmu : Cmu
  tbu : Tbu
  rqu : Rqu
  ntq : Ntq
  xfu : Xfu
  stc : Stc
  lpt : Lpt
  pins : Pins
  clock : Nat
  pending : List Instr
deriving DecidableEq, Repr

/-! ### The cleared blocks and the state after reset -/

/-- No item. -/
def LineItem.blank : LineItem :=
  { bits := [], tooLong := false, missedStart := false, own := false, mismatch := false, endAt := none }

/-- LIF after a pin reset or PORT RESET (R118). DESIGN CHOICE, log 31: it holds no line rate, which R118 does not list and R103
keeps only until the station is HALTED. -/
def Lif.cleared : Lif :=
  { receiver := .off, item := LineItem.blank, transmitter := .idle, sent := none, profile := none, rate := none,
    profileReported := false, duplicateReported := false }

/-- The cleared tracker (R87). -/
def Trk.cleared : Trk :=
  { rotation := 0, holder := none, aligned := false, reference := none, skipTimer := none, moreFollows := false,
    transfers := 0, lone := 0, window := none, phase := .idle }

/-- The cleared stream state, with last heard none and FOUND reported no (R66, R86). -/
def Cmu.cleared : Cmu :=
  { last := none, check := 0, waiting := none, holes := 0, discordance := 0, discordSender := none, ownMark := none,
    lastHeard := none, foundReported := false }

/-- The cleared table and roster (R17, R49). -/
def Tbu.cleared : Tbu :=
  { records := [], inUse := 0, free := Config.claimPool, counts := Vector.replicate 16 0,
    roster := Vector.replicate 16 .vacant, lastApplied := none }

/-- The empty Request Unit (R170). -/
def Rqu.cleared : Rqu := { outgoing := [], inflight := [], carrier := none, live := [] }

/-- The Notification Queue after a reset (R171). -/
def Ntq.cleared : Ntq := { queue := [], lost := 0, overflow := false, head := none }

/-- Both sides of XFU cleared (R119, R139). -/
def Xfu.cleared : Xfu :=
  { phase := .idle, joinMark := none, catchup := [], snapshot := none, map := Vector.replicate 65 none, total := none,
    wanted := 0, stall := 0, image := none, joinerWanted := 0, plan := none }

/-- The configuration copy after a pin reset (R155). -/
def ConfigCopy.default : ConfigCopy := { n := 2, rate := 0, m := 2 }

/-- The local port after a pin reset (R181 to R185). -/
def Lpt.cleared : Lpt :=
  { writeIgnored := false, irqNonEmpty := false, irqOverflow := false, cmd := 0, result := .none, stage0 := 0, stage1 := 0,
    stage2 := 0, stage3 := 0, inqKey := 0, inq0 := 0, inq1 := 0, inq2 := 0, latch := 0, readData := none }

/-- The station right after the release of a pin reset (R155). DESIGN CHOICE, log 4: the pins SN3-SN0 were all low. -/
def State.reset : State :=
  { lif := Lif.cleared, trk := Trk.cleared, cmu := Cmu.cleared, tbu := Tbu.cleared, rqu := Rqu.cleared,
    ntq := Ntq.cleared, xfu := Xfu.cleared,
    stc := { station := .halted, leave := .idle, config := ConfigCopy.default, strap := 0 },
    lpt := Lpt.cleared, pins := { resetLow := false, lineActive := false }, clock := 0, pending := [] }

end Sys2Proof.Machine
end

