-- ==== Sys2Proof/Machine/Arith.lean ====
section
/-! DEFINITION. Serial comparison of rotations, the CRC of the conventions (spec/00), and the byte and bit order of the
line (spec/11 section 11.4). -/

namespace Sys2Proof.Machine

/-! ### Rotation numbers -/

/-- Rotation `a` is later than rotation `b` (spec/00, serial comparison). -/
def later (a b : Word32) : Bool := 1 ≤ (a - b).toNat && (a - b).toNat ≤ 2 ^ 31 - 1

/-- Rotation `a` is earlier than rotation `b` (spec/00, serial comparison). -/
def earlier (a b : Word32) : Bool := 2 ^ 31 ≤ (a - b).toNat

/-- A rotation plus a number of rotations, modulo 2^32. -/
def rotPlus (a : Word32) (n : Nat) : Word32 := a + BitVec.ofNat 32 n

/-- The expiry that a lease sets at rotation `r`: none for lease 0 (R5, R12, R28, R34). -/
def leaseExpiry (r : Word32) (lease : Word16) : Option Word32 :=
  if lease = 0 then none else some (rotPlus r lease.toNat)

/-- The expiry that a patience sets at rotation `r`: none for 4095 (R30). -/
def patienceExpiry (r : Word32) (patience : Word16) : Option Word32 :=
  if patience.toNat = Config.maxLease then none else some (rotPlus r patience.toNat)

/-- An expiry that has run out at boundary `b` (R62): none never has. -/
def expired (b : Word32) : Option Word32 → Bool
  | none => false
  | some e => earlier e b

/-! ### The CRC of the conventions -/

/-- One bit of the CRC register: shift left, and subtract the polynomial when a 1 falls out. -/
def crcShift (c : Word32) : Word32 :=
  if c.msb then (c <<< 1) ^^^ 0x1EDC6F41#32 else c <<< 1

/-- The CRC register after one byte, taken most significant bit first. -/
def crcByte (c : Word32) (b : Byte) : Word32 :=
  crcShift (crcShift (crcShift (crcShift (crcShift (crcShift (crcShift (crcShift
    (c ^^^ (b.setWidth 32 <<< 24)))))))))

/-- The CRC of a byte string: preset of all ones, inverted result (spec/00). -/
def crc (bytes : List Byte) : Word32 := ~~~ (bytes.foldl crcByte 0xFFFFFFFF#32)

/-! ### Bytes and bits -/

/-- The two bytes of a word, most significant first. -/
def bytes16 (w : Word16) : List Byte := [(w >>> 8).setWidth 8, w.setWidth 8]

/-- The four bytes of a word, most significant first. -/
def bytes32 (w : Word32) : List Byte :=
  [(w >>> 24).setWidth 8, (w >>> 16).setWidth 8, (w >>> 8).setWidth 8, w.setWidth 8]

/-- A number below 256 as a byte. -/
def byteOf (n : Nat) : Byte := BitVec.ofNat 8 n

/-- The byte at an index of a byte string, 0 beyond its end. -/
def byteAt (l : List Byte) (i : Nat) : Byte := l.getD i 0

/-- The 16-bit field at a byte index. -/
def word16At (l : List Byte) (i : Nat) : Word16 := byteAt l i ++ byteAt l (i + 1)

/-- The 32-bit field at a byte index. -/
def word32At (l : List Byte) (i : Nat) : Word32 := word16At l i ++ word16At l (i + 2)

/-- The eight bits of a byte as the line carries them, most significant first. -/
def bitsOfByte (b : Byte) : List Bool :=
  [b.getLsbD 7, b.getLsbD 6, b.getLsbD 5, b.getLsbD 4, b.getLsbD 3, b.getLsbD 2, b.getLsbD 1, b.getLsbD 0]

/-- The bits of a byte string as the line carries them. -/
def bitsOfBytes (l : List Byte) : List Bool := l.flatMap bitsOfByte

/-- The value 0 or 1 of a bit. -/
def bitValue (b : Bool) : Nat := if b then 1 else 0

/-- The byte of eight bits, most significant first. -/
def byteOfBits (a b c d e f g h : Bool) : Byte :=
  BitVec.ofNat 8 (128 * bitValue a + 64 * bitValue b + 32 * bitValue c + 16 * bitValue d + 8 * bitValue e
    + 4 * bitValue f + 2 * bitValue g + bitValue h)

/-- The bytes of a run of bits; none when it is no whole number of bytes (check 1 of R106). -/
def bytesOfBits : List Bool → Option (List Byte)
  | [] => some []
  | a :: b :: c :: d :: e :: f :: g :: h :: rest => (bytesOfBits rest).map (byteOfBits a b c d e f g h :: ·)
  | _ => none

end Sys2Proof.Machine
end

