-- ==== Sys2Proof/Machine/Frames.lean ====
section
/-! DEFINITION. Frames as the line carries them: the encoder that the transmitter uses (R109, R136), and the ordered
checks by which LIF classifies an item (R106 to R108, R112 to R117), over the layouts of spec/11 section 11.4. -/

namespace Sys2Proof.Machine

/-! ### Codes -/

/-- The frame kind codes (spec/11, Codes). -/
def StreamKind.code : StreamKind → Byte
  | .found => 1
  | .member => 2
  | .join => 3
  | .loading => 4
  | .ready => 5
  | .leave => 6

/-- The stream frame kind of a code (check 5 of R106); the code 7 of a TRANSFER is taken apart elsewhere. -/
def streamKindOf (b : Byte) : Option StreamKind :=
  if b = 1 then some .found else if b = 2 then some .member else if b = 3 then some .join
  else if b = 4 then some .loading else if b = 5 then some .ready else if b = 6 then some .leave else none

/-- The op kind codes. -/
def OpKind.code : OpKind → Byte
  | .acquire => 1
  | .release => 2
  | .renew => 3
  | .withdraw => 4
  | .downgrade => 5

/-- The op kind of a code (R20, R113, R184). -/
def opKindOf (n : Nat) : Option OpKind :=
  if n = 1 then some .acquire else if n = 2 then some .release else if n = 3 then some .renew
  else if n = 4 then some .withdraw else if n = 5 then some .downgrade else none

/-- The mode codes; 0 is absent. -/
def modeCode : Option Mode → Byte
  | none => 0
  | some .shared => 1
  | some .exclusive => 2

/-- The mode of a code; none for a code that is neither SHARED nor EXCLUSIVE. -/
def modeOf (n : Nat) : Option Mode :=
  if n = 1 then some .shared else if n = 2 then some .exclusive else none

/-! ### Which fields an op kind uses (R21) -/

/-- ACQUIRE uses the mode. -/
def OpKind.usesMode : OpKind → Bool
  | .acquire => true
  | .release => false
  | .renew => false
  | .withdraw => false
  | .downgrade => false

/-- ACQUIRE and RENEW use the lease. -/
def OpKind.usesLease : OpKind → Bool
  | .acquire => true
  | .release => false
  | .renew => true
  | .withdraw => false
  | .downgrade => false

/-- ACQUIRE uses the patience. -/
def OpKind.usesPatience : OpKind → Bool
  | .acquire => true
  | .release => false
  | .renew => false
  | .withdraw => false
  | .downgrade => false

/-- The request of raw field values when it is well formed (R158, R113), with every ignored field as 0. -/
def formRequest (op mode : Nat) (tag : Byte) (resource lease patience : Word16) : Option Request :=
  match opKindOf op with
  | none => none
  | some k =>
    if resource = 0 then none
    else if k.usesMode && (modeOf mode).isNone then none
    else if k.usesLease && decide (Config.maxLease < lease.toNat) then none
    else if k.usesPatience && decide (Config.maxLease < patience.toNat) then none
    else some
      { kind := k
        mode := if k.usesMode then modeOf mode else none
        tag := tag
        resource := resource
        lease := if k.usesLease then lease else 0
        patience := if k.usesPatience then patience else 0 }

/-! ### Encoding -/

/-- The sync pattern. -/
def syncBytes : List Byte := [0xD3, 0x91]

/-- The flags byte (R112, R115): more follows, echo present, stream check present. -/
def flagsByte (more echo check : Bool) : Byte :=
  byteOf (bitValue more + 2 * bitValue echo + 4 * bitValue check)

/-- The three parts of an echo, 0 when absent. -/
def echoBytes : Option FrameRef → List Byte
  | none => bytes32 0 ++ [0] ++ bytes32 0
  | some e => bytes32 e.id.rotation ++ [byteOf e.id.sender] ++ bytes32 e.check

/-- An operation entry (R113). -/
def entryBytes (q : Request) : List Byte :=
  [q.kind.code ||| (modeCode q.mode <<< 4), q.tag] ++ bytes16 q.resource ++ bytes16 q.lease ++ bytes16 q.patience

/-- A stream frame's bytes between the sync pattern and the frame check (R112). -/
def streamBody (profile : Byte) (f : StreamFrame) : List Byte :=
  [profile, f.kind.code, flagsByte f.moreFollows f.echo.isSome f.streamCheck.isSome, byteOf f.sender]
    ++ bytes32 f.rotation ++ echoBytes f.echo ++ bytes32 (f.streamCheck.getD 0)
    ++ [byteOf f.wanted, byteOf f.ops.length] ++ f.ops.flatMap entryBytes

/-- A roster entry: state, last seen, join start, donor, with what is not meaningful written 0 (R116). -/
def rosterEntryBytes : RosterEntry → List Byte
  | .vacant => [0] ++ bytes32 0 ++ bytes32 0 ++ [0]
  | .joining start donor => [1] ++ bytes32 0 ++ bytes32 start ++ [byteOf donor]
  | .member seen => [2] ++ bytes32 seen ++ bytes32 0 ++ [0]

/-- The status byte of a claim: state, mode, expiry none. -/
def claimStatus (st : ClaimState) (c : Claim) : Byte :=
  (match st with | .holding => 1#8 | .waiting => 2#8) ||| (modeCode (some c.mode) <<< 2)
    ||| (if c.expiry.isNone then 16#8 else 0#8)

/-- A claim of a record item. -/
def claimBytes (st : ClaimState) (c : Claim) : List Byte :=
  [byteOf c.station, claimStatus st c, c.tag] ++ bytes16 c.lease ++ bytes32 (c.expiry.getD 0)

/-- A snapshot item (R116). -/
def itemBytes : SnapItem → List Byte
  | .roster r =>
    [byteOf r.entries.length] ++ bytes32 r.lastApplied ++ bytes32 r.streamCheck ++ bytes32 r.last.id.rotation
      ++ [byteOf r.last.id.sender] ++ bytes32 r.last.check ++ r.entries.flatMap rosterEntryBytes
  | .record r =>
    bytes16 r.resource ++ [byteOf (r.holders.length + r.waiters.length)]
      ++ r.holders.flatMap (claimBytes .holding) ++ r.waiters.flatMap (claimBytes .waiting)

/-- A transfer frame's bytes between the sync pattern and the frame check (R115). -/
def transferBody (profile : Byte) (t : TransferFrame) : List Byte :=
  [profile, 7, flagsByte t.moreFollows false false, byteOf t.sender, byteOf t.joiner]
    ++ bytes32 t.snapRotation ++ bytes32 t.donorRotation
    ++ [byteOf t.first, byteOf t.items.length, byteOf t.total] ++ t.items.flatMap itemBytes

/-- The bytes that the frame check covers. -/
def frameBody (profile : Byte) : Frame → List Byte
  | .stream f => streamBody profile f
  | .transfer t => transferBody profile t

/-- The frame check that a frame is sent with (R109). -/
def frameCheck (profile : Byte) (f : Frame) : Word32 := crc (frameBody profile f)

/-- The frame on the line: sync pattern, header and body, frame check (R109). -/
def encodeFrame (profile : Byte) (f : Frame) : List Byte :=
  syncBytes ++ frameBody profile f ++ bytes32 (frameCheck profile f)

/-- The frame with its frame check filled in. -/
def StreamFrame.sealed (profile : Byte) (f : StreamFrame) : StreamFrame :=
  { f with check := frameCheck profile (.stream f) }

/-- The transfer frame with its frame check filled in. -/
def TransferFrame.sealed (profile : Byte) (t : TransferFrame) : TransferFrame :=
  { t with check := frameCheck profile (.transfer t) }

/-! ### Receiving: checks 5 to 8 of R106. Offsets count from the byte after the sync pattern. -/

/-- Which presence flags a kind allows (R114). -/
def flagsAgree (k : StreamKind) (more echo check : Bool) : Bool :=
  match k with
  | .found => !more && !echo && !check
  | .join => !check
  | .loading => !check
  | .member => echo && check
  | .ready => echo && check
  | .leave => echo && check

/-- One operation entry of 8 bytes, none when it fails its checks (R113). -/
def parseEntry (l : List Byte) : Option Request :=
  let b := byteAt l 0
  if b.getLsbD 3 || b.getLsbD 6 || b.getLsbD 7 then none
  else formRequest (b.toNat % 8) (b.toNat / 16 % 4) (byteAt l 1) (word16At l 2) (word16At l 4) (word16At l 6)

/-- The operation entries of a MEMBER frame, none when any fails (R113). -/
def parseEntries : Nat → List Byte → Option (List Request)
  | 0, _ => some []
  | n + 1, l =>
    match parseEntry (l.take 8), parseEntries n (l.drop 8) with
    | some q, some qs => some (q :: qs)
    | _, _ => none

/-- A stream frame of kind `k` from its bytes after the sync pattern and before the frame check (R112 to R114). -/
def parseStream (n : Nat) (k : StreamKind) (l : List Byte) (check : Word32) : Option StreamFrame :=
  let flags := byteAt l 2
  let more := flags.getLsbD 0
  let echoOn := flags.getLsbD 1
  let checkOn := flags.getLsbD 2
  let sender := (byteAt l 3).toNat
  let rotation := word32At l 4
  let echoSender := (byteAt l 12).toNat
  let wanted := (byteAt l 21).toNat
  let count := (byteAt l 22).toNat
  if flags.toNat / 8 ≠ 0 || !flagsAgree k more echoOn checkOn then none
  else if l.length ≠ 23 + 8 * count then none
  else if n ≤ sender || (decide (k = .found) && decide (rotation ≠ 0)) || (echoOn && decide (n ≤ echoSender))
      || (decide (k = .loading) && decide (Config.snapshotItems < wanted)) || decide (Config.maxOps < count)
      || (decide (k ≠ .member) && decide (count ≠ 0)) then none
  else match parseEntries count (l.drop 23) with
    | none => none
    | some ops => some
      { kind := k
        sender := sender
        rotation := rotation
        moreFollows := more
        echo := if echoOn then some ⟨⟨word32At l 8, echoSender⟩, word32At l 13⟩ else none
        streamCheck := if checkOn then some (word32At l 17) else none
        wanted := if k = .loading then wanted else 0
        ops := ops
        check := check }

/-- A roster entry of 10 bytes (R116). -/
def parseRosterEntry (n : Nat) (l : List Byte) : Option RosterEntry :=
  if byteAt l 0 = 0 then some .vacant
  else if byteAt l 0 = 1 then
    if (byteAt l 9).toNat < n then some (.joining (word32At l 5) (byteAt l 9).toNat) else none
  else if byteAt l 0 = 2 then some (.member (word32At l 1))
  else none

/-- A run of roster entries. -/
def parseRosterEntries (n : Nat) : Nat → List Byte → Option (List RosterEntry)
  | 0, _ => some []
  | k + 1, l =>
    match parseRosterEntry n (l.take 10), parseRosterEntries n k (l.drop 10) with
    | some e, some es => some (e :: es)
    | _, _ => none

/-- The roster item at the head of a byte string, with the bytes behind it; its entry count equals N (R116). -/
def parseRosterItem (n : Nat) (l : List Byte) : Option (SnapItem × List Byte) :=
  if l.length < 18 + 10 * n || (byteAt l 0).toNat ≠ n || n ≤ (byteAt l 13).toNat then none
  else match parseRosterEntries n n (l.drop 18) with
    | none => none
    | some es => some
      (.roster ⟨word32At l 1, word32At l 5, ⟨⟨word32At l 9, (byteAt l 13).toNat⟩, word32At l 14⟩, es⟩,
        l.drop (18 + 10 * n))

/-- A claim of 9 bytes with its state (R116). Bits 7 to 5 of its status are not read (log 19). -/
def parseClaim (n : Nat) (l : List Byte) : Option (ClaimState × Claim) :=
  let station := (byteAt l 0).toNat
  let status := byteAt l 1
  match (if status.toNat % 4 = 1 then some ClaimState.holding
      else if status.toNat % 4 = 2 then some ClaimState.waiting else none), modeOf (status.toNat / 4 % 4) with
  | some st, some mode =>
    if n ≤ station || decide (Config.maxLease < (word16At l 3).toNat) then none
    else some (st, ⟨station, mode, byteAt l 2, word16At l 3, if status.getLsbD 4 then none else some (word32At l 5)⟩)
  | _, _ => none

/-- A run of claims. -/
def parseClaims (n : Nat) : Nat → List Byte → Option (List (ClaimState × Claim))
  | 0, _ => some []
  | k + 1, l =>
    match parseClaim n (l.take 9), parseClaims n k (l.drop 9) with
    | some c, some cs => some (c :: cs)
    | _, _ => none

/-- No HOLDING claim stands after a WAITING one (R116). -/
def holdersFirst : List (ClaimState × Claim) → Bool
  | [] => true
  | (.holding, _) :: rest => holdersFirst rest
  | (.waiting, _) :: rest => rest.all (fun c => c.1 == .waiting) && holdersFirst rest

/-- The claims of one state. -/
def claimsIn (st : ClaimState) (cs : List (ClaimState × Claim)) : List Claim :=
  (cs.filter (fun c => c.1 == st)).map (·.2)

/-- The record item at the head of a byte string, with the bytes behind it (R116). -/
def parseRecordItem (n : Nat) (l : List Byte) : Option (SnapItem × List Byte) :=
  let count := (byteAt l 2).toNat
  if l.length < 3 + 9 * count || word16At l 0 = 0 || decide (count = 0) || decide (n < count) then none
  else match parseClaims n count (l.drop 3) with
    | none => none
    | some cs =>
      if decide (cs.map (·.2.station)).Nodup && holdersFirst cs then
        some (.record ⟨word16At l 0, claimsIn .holding cs, claimsIn .waiting cs⟩, l.drop (3 + 9 * count))
      else none

/-- `k` items from index `i`, filling the byte string exactly (R115). Item 0 is the roster item. -/
def parseItems (n : Nat) : Nat → Nat → List Byte → Option (List SnapItem)
  | _, 0, l => if l = [] then some [] else none
  | i, k + 1, l =>
    match (if i = 0 then parseRosterItem n l else parseRecordItem n l) with
    | none => none
    | some (it, rest) => (parseItems n (i + 1) k rest).map (it :: ·)

/-- A transfer frame from its bytes after the sync pattern and before the frame check (R115). -/
def parseTransfer (n : Nat) (l : List Byte) (check : Word32) : Option TransferFrame :=
  let flags := byteAt l 2
  let sender := (byteAt l 3).toNat
  let joiner := (byteAt l 4).toNat
  let first := (byteAt l 13).toNat
  let count := (byteAt l 14).toNat
  let total := (byteAt l 15).toNat
  if flags.toNat / 2 ≠ 0 then none
  else if n ≤ sender || n ≤ joiner || joiner = sender || Config.snapshotItems ≤ first || count = 0
      || Config.itemsPerTransfer < count || total = 0 || Config.snapshotItems < total || total < first + count then none
  else match parseItems n first count (l.drop 16) with
    | none => none
    | some items => some
      { sender := sender, moreFollows := flags.getLsbD 0, joiner := joiner, snapRotation := word32At l 5,
        donorRotation := word32At l 9, first := first, total := total, items := items, check := check }

/-- A frame whose frame check and profile hold, by checks 5 to 8 of R106. -/
def parseFrame (n : Nat) (l : List Byte) (check : Word32) : Option Frame :=
  if byteAt l 1 = 7 then (parseTransfer n l check).map .transfer
  else match streamKindOf (byteAt l 1) with
    | none => none
    | some k => (parseStream n k l check).map .stream

/-- The sender of a frame. -/
def Frame.sender : Frame → Nat
  | .stream f => f.sender
  | .transfer t => t.sender

/-- What LIF makes of an item: a valid frame, or a fault, which with the profile mismatch and the duplicate sender
may also be reported (R106 to R108). -/
inductive Heard where
  /-- a valid stream frame -/
  | stream (f : StreamFrame)
  /-- a valid transfer frame -/
  | transfer (t : TransferFrame)
  /-- a fault -/
  | fault
  /-- a fault by check 4, with the profile received -/
  | profile (p : Byte)
  /-- a fault by check 9 -/
  | duplicate
deriving DecidableEq, Repr

/-- The valid item of a frame. -/
def Heard.ofFrame : Frame → Heard
  | .stream f => .stream f
  | .transfer t => .transfer t

/-- The nine checks of R106 over the bytes of an item, in their order: `profile` is the station's own, `n` the station
count, `number` its own number, `own` whether it transmitted during the item. -/
def classifyBytes (profile : Byte) (n number : Nat) (own : Bool) (bytes : List Byte) : Heard :=
  let l := (bytes.drop 2).take (bytes.length - 6)
  let check := word32At bytes (bytes.length - 4)
  if bytes.length < Config.shortestFrame then .fault
  else if bytes.take 2 ≠ syncBytes then .fault
  else if check ≠ crc l then .fault
  else if byteAt l 0 ≠ profile then .profile (byteAt l 0)
  else match parseFrame n l check with
    | none => .fault
    | some f => if f.sender = number && !own then .duplicate else Heard.ofFrame f

/-- The classification of an item's bits (R106). -/
def classify (profile : Byte) (n number : Nat) (own : Bool) (bits : List Bool) : Heard :=
  match bytesOfBits bits with
  | none => .fault
  | some bytes => classifyBytes profile n number own bytes

/-! ### The frames a station may send -/

/-- A request whose fields lie in range and whose ignored fields are 0 (R20, R21, R158). -/
def Request.wf (q : Request) : Bool :=
  decide (q.resource ≠ 0) && (q.mode.isSome == q.kind.usesMode)
    && decide (q.lease.toNat ≤ Config.maxLease) && (q.kind.usesLease || decide (q.lease = 0))
    && decide (q.patience.toNat ≤ Config.maxLease) && (q.kind.usesPatience || decide (q.patience = 0))

/-- A stream frame whose fields lie in the ranges of R112 to R114 in a group of `n`. -/
def StreamFrame.wf (n : Nat) (f : StreamFrame) : Bool :=
  flagsAgree f.kind f.moreFollows f.echo.isSome f.streamCheck.isSome
    && decide (f.sender < n) && (decide (f.kind ≠ .found) || decide (f.rotation = 0))
    && (match f.echo with | none => true | some e => decide (e.id.sender < n))
    && (if f.kind = .loading then decide (f.wanted ≤ Config.snapshotItems) else decide (f.wanted = 0))
    && (if f.kind = .member then decide (f.ops.length ≤ Config.maxOps) else decide (f.ops = []))
    && f.ops.all Request.wf

/-- A claim in range in a group of `n` (R116). -/
def Claim.wf (n : Nat) (c : Claim) : Bool := decide (c.station < n) && decide (c.lease.toNat ≤ Config.maxLease)

/-- A roster entry in range (R116). -/
def RosterEntry.wf (n : Nat) : RosterEntry → Bool
  | .vacant => true
  | .joining _ donor => decide (donor < n)
  | .member _ => true

/-- A record in range (R116): its claims of distinct stations, 1 to `n` of them. -/
def ResRecord.wf (n : Nat) (r : ResRecord) : Bool :=
  decide (r.resource ≠ 0) && decide (1 ≤ r.holders.length + r.waiters.length)
    && decide (r.holders.length + r.waiters.length ≤ n) && r.holders.all (Claim.wf n) && r.waiters.all (Claim.wf n)
    && decide ((r.holders ++ r.waiters).map (·.station)).Nodup

/-- The roster item stands at index 0 and record items at every other (R115, R116). -/
def SnapItem.wf (n i : Nat) : SnapItem → Bool
  | .roster r => decide (i = 0) && decide (r.entries.length = n) && decide (r.last.id.sender < n)
      && r.entries.all (RosterEntry.wf n)
  | .record r => decide (i ≠ 0) && r.wf n

/-- Items from index `i` on are in range. -/
def itemsWf (n : Nat) : Nat → List SnapItem → Bool
  | _, [] => true
  | i, it :: rest => it.wf n i && itemsWf n (i + 1) rest

/-- A transfer frame whose fields lie in the ranges of R115 and R116. -/
def TransferFrame.wf (n : Nat) (t : TransferFrame) : Bool :=
  decide (t.sender < n) && decide (t.joiner < n) && decide (t.joiner ≠ t.sender) && decide (t.first < Config.snapshotItems)
    && decide (1 ≤ t.items.length) && decide (t.items.length ≤ Config.itemsPerTransfer)
    && decide (t.total ≤ Config.snapshotItems) && decide (t.first + t.items.length ≤ t.total)
    && itemsWf n t.first t.items

/-- A frame in range. -/
def Frame.wf (n : Nat) : Frame → Bool
  | .stream f => f.wf n
  | .transfer t => t.wf n

/-- The frame with its frame check filled in. -/
def Frame.sealed (profile : Byte) : Frame → Frame
  | .stream f => .stream (f.sealed profile)
  | .transfer t => .transfer (t.sealed profile)

/-- The identity of a stream frame. -/
def StreamFrame.id (f : StreamFrame) : FrameId := ⟨f.rotation, f.sender⟩

/-- A stream frame as an echo names it (R70). -/
def StreamFrame.ref (f : StreamFrame) : FrameRef := ⟨f.id, f.check⟩

/-- A MEMBER frame without operations, which takes no own mark (R66, R78). -/
def StreamFrame.isBare (f : StreamFrame) : Bool := f.kind == .member && f.ops.isEmpty

/-- What the other blocks know of a frame the station sent (R69, R78, R80). A transfer frame is identified by its donor
rotation and sender (log 15). -/
def Frame.ownItem : Frame → OwnItem
  | .stream f => ⟨f.id, .stream f.kind, f.isBare⟩
  | .transfer t => ⟨⟨t.donorRotation, t.sender⟩, .transfer, false⟩

end Sys2Proof.Machine
end

