-- ==== Sys2Proof/Machine/Ops.lean ====
section
/-! DEFINITION. The named operations over the state that every command shares: one update per block, the station's own
number and configuration, offering a notification record (R175, R176), and the moves of a request (R156 to R169). -/

namespace Sys2Proof.Machine

/-! ### One update per block -/

/-- Replace the Line Interface. -/
def State.setLif (s : State) (x : Lif) : State := { s with lif := x }
/-- Replace the Turn Tracker. -/
def State.setTrk (s : State) (x : Trk) : State := { s with trk := x }
/-- Replace the Commit Unit. -/
def State.setCmu (s : State) (x : Cmu) : State := { s with cmu := x }
/-- Replace the Table Unit. -/
def State.setTbu (s : State) (x : Tbu) : State := { s with tbu := x }
/-- Replace the Request Unit. -/
def State.setRqu (s : State) (x : Rqu) : State := { s with rqu := x }
/-- Replace the Notification Queue. -/
def State.setNtq (s : State) (x : Ntq) : State := { s with ntq := x }
/-- Replace the Transfer Unit. -/
def State.setXfu (s : State) (x : Xfu) : State := { s with xfu := x }
/-- Replace the Station Controller. -/
def State.setStc (s : State) (x : Stc) : State := { s with stc := x }
/-- Replace the Local Port. -/
def State.setLpt (s : State) (x : Lpt) : State := { s with lpt := x }
/-- Replace the pin levels. -/
def State.setPins (s : State) (x : Pins) : State := { s with pins := x }
/-- Replace the queue of waiting commands. -/
def State.setPending (s : State) (x : List Instr) : State := { s with pending := x }

/-! ### The station's own number and configuration (R140, R141) -/

/-- The station's own number: the strap number. -/
def State.number (s : State) : Nat := s.stc.strap.toNat

/-- The configured station count N. -/
def State.groupSize (s : State) : Nat := s.stc.config.n.toNat

/-- The configured absence limit M. -/
def State.absenceLimit (s : State) : Nat := s.stc.config.m.toNat

/-- The profile check of a configuration (R107): the least significant byte of the CRC over N, rate code, M. -/
def profileOf (c : ConfigCopy) : Byte := (crc [c.n.setWidth 8, c.rate.setWidth 8, c.m.setWidth 8]).setWidth 8

/-- The profile check LIF holds; LIF holds one whenever its receiver is on (R118). -/
def State.profile (s : State) : Byte := s.lif.profile.getD 0

/-! ### Notifications -/

/-- The queue after a record is offered (R176). -/
def Ntq.offer (q : Ntq) (n : Note) : Ntq :=
  if q.queue.length < Config.queuePlaces then { q with queue := q.queue ++ [n] }
  else { q with lost := min (q.lost + 1) Config.countLimit, overflow := true }

/-- Offer one record to the Notification Queue (R175, R176). -/
def State.offer (s : State) (n : Note) : State := s.setNtq (s.ntq.offer n)

/-- Offer records in their order (R175). -/
def State.offerAll (s : State) (ns : List Note) : State := s.setNtq (ns.foldl Ntq.offer s.ntq)

/-- A station event record (R174): no tag, no resource number, no mode. -/
def stationNote (kind : NoteKind) (rotation : Word32) (detail : Detail) : Note :=
  { kind := kind, tag := none, resource := none, mode := none, rotation := rotation, detail := detail }

/-- A STATE record (R142). -/
def stateNote (st : StationState) (r : StateReason) (f : Option JoinFailure) (rotation : Word32) : Note :=
  stationNote .state rotation (.state st r f)

/-- The final record RQU writes for a request, CANCELLED or ABORTED (R164, R167, R169). -/
def requestNote (kind : NoteKind) (rotation : Word32) (q : Request) : Note :=
  { kind := kind, tag := some q.tag, resource := some q.resource,
    mode := if q.kind = .acquire then q.mode else none, rotation := rotation, detail := .absent }

/-- Take the station to a state and write its STATE record (R142). -/
def State.enter (s : State) (st : StationState) (r : StateReason) (f : Option JoinFailure) (rotation : Word32) : State :=
  (s.setStc { s.stc with station := st }).offer (stateNote st r f rotation)

/-! ### The Request Unit -/

/-- A tag leaves the live-tag set (R159). -/
def dropTag (t : Byte) (l : List Byte) : List Byte := l.erase t

/-- The tags of finished requests leave the live-tag set. -/
def dropTags (qs : List Request) (l : List Byte) : List Byte := qs.foldl (fun acc q => dropTag q.tag acc) l

/-- A well-formed request joins the tail of the outgoing queue with its tag live (R157). -/
def Rqu.accept (u : Rqu) (q : Request) : Rqu :=
  { u with outgoing := u.outgoing ++ [q], live := u.live ++ [q.tag] }

/-- Up to 8 requests move from the head of the queue to the in-flight list, which a run finds empty then, carried by the
frame `id` (R161). -/
def Rqu.assemble (u : Rqu) (id : FrameId) : Rqu :=
  if u.outgoing = [] then u
  else
    { u with outgoing := u.outgoing.drop Config.maxOps
             inflight := u.inflight ++ u.outgoing.take Config.maxOps
             carrier := some id }

/-- The in-flight requests return to the head of the queue in their order (R165). -/
def Rqu.requeue (u : Rqu) : Rqu :=
  { u with outgoing := u.inflight ++ u.outgoing, inflight := [], carrier := none }

/-- `k` results of a committed frame end the `k` requests at the head of the in-flight list (R164). -/
def Rqu.endResults (u : Rqu) (k : Nat) : Rqu :=
  { u with inflight := u.inflight.drop k, live := dropTags (u.inflight.take k) u.live }

/-- CMU reports the carrying frame committed (R164). -/
def Rqu.frameCommitted (u : Rqu) (id : FrameId) : Rqu :=
  if u.carrier = some id then { u with carrier := none } else u

/-- Every in-flight request ends with ABORTED, in frame order, at rotation `r` (R169). -/
def State.abortInflight (s : State) (r : Word32) : State :=
  (s.offerAll (s.rqu.inflight.map (requestNote .aborted r))).setRqu
    { s.rqu with inflight := [], carrier := none, live := dropTags s.rqu.inflight s.rqu.live }

/-- Every queued request ends with ABORTED, from head to tail, at rotation `r` (R169). -/
def State.abortOutgoing (s : State) (r : Word32) : State :=
  (s.offerAll (s.rqu.outgoing.map (requestNote .aborted r))).setRqu
    { s.rqu with outgoing := [], live := dropTags s.rqu.outgoing s.rqu.live }

/-- The in-flight list and then the queue end with ABORTED (R152, R153, R154). -/
def State.abortAll (s : State) (r : Word32) : State := (s.abortInflight r).abortOutgoing r

/-- The first `k` in-flight requests are discarded at the commit of their frame of rotation `r`, each ended with
ABORTED (R23, R164). -/
def State.abortDiscarded (s : State) (k : Nat) (r : Word32) : State :=
  (s.offerAll ((s.rqu.inflight.take k).map (requestNote .aborted r))).setRqu (s.rqu.endResults k)

/-- The index in the queue of the request with a tag (R167). -/
def Rqu.queuedWith (u : Rqu) (t : Byte) : Option Request := u.outgoing.find? (fun q => q.tag == t)

/-- CANCEL removes the queued request of a tag (R167). -/
def Rqu.cancelTag (u : Rqu) (t : Byte) : Rqu :=
  { u with outgoing := u.outgoing.eraseP (fun q => q.tag == t), live := dropTag t u.live }

/-! ### The local port -/

/-- A command is taken: its code stands in CMD and its result in RESULT (R183). -/
def State.answer (s : State) (code : Word16) (r : Result) : State :=
  s.setLpt { s.lpt with cmd := code, result := r }

/-- A command of the host, its pins or its line has no effect while RESET is low (R155, R180). -/
def State.unlessHeld (s t : State) : State := if s.pins.resetLow then s else t

end Sys2Proof.Machine
end

