-- ==== Sys2Proof/Machine/Operands.lean ====
section
/-! DEFINITION. The words the host writes, taken apart: the staging words of a POST (R184), the CONFIG and IRQEN words
(R182), and the configuration check of ENABLE (R143). -/

namespace Sys2Proof.Machine

/-- The op kind field of STAGE0, bits 2-0. -/
def stageOp (w : Word16) : Nat := (w.extractLsb' 0 3).toNat

/-- The mode field of STAGE0, bits 5-4. -/
def stageMode (w : Word16) : Nat := (w.extractLsb' 4 2).toNat

/-- The host tag field of STAGE0, bits 15-8. -/
def stageTag (w : Word16) : Byte := w.extractLsb' 8 8

/-- The request that the staging words hold, none when it is not well formed (R158, R184). -/
def Lpt.stagedRequest (p : Lpt) : Option Request :=
  formRequest (stageOp p.stage0) (stageMode p.stage0) (stageTag p.stage0) p.stage1 p.stage2 p.stage3

/-- The three fields of a word written to CONFIG: 4-0 N, 9-8 rate code, 14-12 M (R182). -/
def configOf (w : Word16) : ConfigCopy :=
  { n := w.extractLsb' 0 5, rate := w.extractLsb' 8 2, m := w.extractLsb' 12 3 }

/-- ENABLE's check of the configuration copy and the strap number (R143). The rate code has no value out of range. -/
def configValid (c : ConfigCopy) (number : Nat) : Bool :=
  2 ≤ c.n.toNat && c.n.toNat ≤ 16 && 1 ≤ c.m.toNat && c.m.toNat ≤ 4 && number < c.n.toNat

end Sys2Proof.Machine
end

