-- ==== Sys2Proof/Machine/Table.lean ====
section
/-! DEFINITION. The Table Unit (chapters 1 to 3): records and claims, the grant pass, the five operations, rotation
boundaries, roster effects, and the load and the copy of a snapshot image. Everything here is a function of the table
alone; the outcomes it produces name a station each (R15) and are routed elsewhere. -/

namespace Sys2Proof.Machine

/-- An outcome TBU produces, with the one station it names (R15). -/
structure Outcome where
  station : Nat
  note : Note
deriving DecidableEq, Repr

/-- An application under way (R14): the table, the resource numbers touched in the present step (R13), and the outcomes
produced so far, in order. -/
structure App where
  tbu : Tbu
  touched : List Word16
  out : List Outcome
deriving DecidableEq, Repr

/-! ### Records, claims and counts (R1 to R9) -/

/-- The record of a resource number. -/
def Tbu.find (t : Tbu) (x : Word16) : Option ResRecord := t.records.find? (fun r => r.resource == x)

/-- The holding claim of a station in a record. -/
def ResRecord.holding (r : ResRecord) (s : Nat) : Option Claim := r.holders.find? (fun c => c.station == s)

/-- The waiting claim of a station in a record. -/
def ResRecord.waitingOf (r : ResRecord) (s : Nat) : Option Claim := r.waiters.find? (fun c => c.station == s)

/-- Some holder is EXCLUSIVE. -/
def hasExclusive (l : List Claim) : Bool := l.any (fun c => c.mode == .exclusive)

/-- A request of mode `m` is compatible with the holders (R10, R11). -/
def compatible (m : Mode) (holders : List Claim) : Bool :=
  match m with
  | .shared => !hasExclusive holders
  | .exclusive => holders.isEmpty

/-- An ACQUIRE of mode `m` is grantable (R10). -/
def grantable (m : Mode) : Option ResRecord → Bool
  | none => true
  | some r => r.waiters.isEmpty && compatible m r.holders

/-- A station's claim count. -/
def Tbu.count (t : Tbu) (s : Nat) : Nat := t.counts[s]?.getD 0

/-- One more claim of a station (R7). -/
def countUp (v : Vector Nat 16) (s : Nat) : Vector Nat 16 := v.setIfInBounds s (v[s]?.getD 0 + 1)

/-- One claim fewer of a station (R7). -/
def countDown (v : Vector Nat 16) (s : Nat) : Vector Nat 16 := v.setIfInBounds s (v[s]?.getD 0 - 1)

/-- A new record takes its place in ascending resource number. -/
def insertRecord (x : ResRecord) : List ResRecord → List ResRecord
  | [] => [x]
  | r :: rs => if x.resource < r.resource then x :: r :: rs else r :: insertRecord x rs

/-- A change of one record. -/
def modifyRecord (x : Word16) (f : ResRecord → ResRecord) (l : List ResRecord) : List ResRecord :=
  l.map (fun r => if r.resource = x then f r else r)

/-- The table's change when a claim of station `s` is created: one free claim fewer, one claim more of `s` (R6, R7). -/
def Tbu.takeClaim (t : Tbu) (s : Nat) : Tbu := { t with free := t.free - 1, counts := countUp t.counts s }

/-- A holding claim is created at the tail of the holder list, its record first when there is none (R8, R28). -/
def Tbu.addHolder (t : Tbu) (x : Word16) (c : Claim) : Tbu :=
  match t.find x with
  | none => { t.takeClaim c.station with records := insertRecord ⟨x, [c], []⟩ t.records, inUse := t.inUse + 1 }
  | some _ =>
    { t.takeClaim c.station with records := modifyRecord x (fun r => { r with holders := r.holders ++ [c] }) t.records }

/-- A waiting claim is created at the tail of the wait list (R30). -/
def Tbu.addWaiter (t : Tbu) (x : Word16) (c : Claim) : Tbu :=
  { t.takeClaim c.station with records := modifyRecord x (fun r => { r with waiters := r.waiters ++ [c] }) t.records }

/-- Which claims a removal takes, by resource number, list and claim. -/
abbrev ClaimPick := Word16 → ClaimState → Claim → Bool

/-- The claims a removal takes out of one record, in walk order (R13). -/
def ResRecord.picked (p : ClaimPick) (r : ResRecord) : List (Word16 × Claim) :=
  (r.holders.filter (p r.resource .holding) ++ r.waiters.filter (p r.resource .waiting)).map (fun c => (r.resource, c))

/-- The record without the claims a removal takes, the others in their order (R9). -/
def ResRecord.without (p : ClaimPick) (r : ResRecord) : ResRecord :=
  { r with holders := r.holders.filter (fun c => !p r.resource .holding c)
           waiters := r.waiters.filter (fun c => !p r.resource .waiting c) }

/-- The claims a removal takes out of the table, in walk order (R13). -/
def Tbu.picked (p : ClaimPick) (t : Tbu) : List (Word16 × Claim) := t.records.flatMap (ResRecord.picked p)

/-- The table without the claims a removal takes: each returns to the pool and lowers its station's count (R9). -/
def Tbu.without (p : ClaimPick) (t : Tbu) : Tbu :=
  { t with records := t.records.map (ResRecord.without p)
           free := t.free + (t.picked p).length
           counts := (t.picked p).foldl (fun v g => countDown v g.2.station) t.counts }

/-- A record of a claim: EXPIRED, TIMED_OUT or LOST, with the claim's tag and mode (R51, R62). -/
def claimNote (kind : NoteKind) (rotation : Word32) (g : Word16 × Claim) : Outcome :=
  ⟨g.2.station, { kind := kind, tag := some g.2.tag, resource := some g.1, mode := some g.2.mode, rotation := rotation,
                  detail := .absent }⟩

/-- Remove the claims of a pick, touch their records, and produce an outcome of one kind for each (R9, R13, R62). -/
def App.remove (a : App) (p : ClaimPick) (kind : NoteKind) (rotation : Word32) : App :=
  { tbu := a.tbu.without p
    touched := a.touched ++ (a.tbu.picked p).map (·.1)
    out := a.out ++ (a.tbu.picked p).map (claimNote kind rotation) }

/-- Every claim of one station. -/
def pickStation (k : Nat) : ClaimPick := fun _ _ c => c.station == k

/-- One station's claim in one list of one record. -/
def pickOne (x : Word16) (st : ClaimState) (s : Nat) : ClaimPick := fun y st' c => y == x && st' == st && c.station == s

/-- Remove every claim of a station, with LOST for each (R51). -/
def App.purge (a : App) (k : Nat) (rotation : Word32) : App := a.remove (pickStation k) .lost rotation

/-! ### Grants (R11, R12) -/

/-- The claim as a grant at rotation `r` leaves it (R12). -/
def Claim.granted (r : Word32) (c : Claim) : Claim := { c with expiry := leaseExpiry r c.lease }

/-- The grant pass over a wait list: the holders after it, the waiters that stay, and the claims granted, in order (R11). -/
def grantLoop (r : Word32) (holders : List Claim) : List Claim → List Claim × List Claim × List Claim
  | [] => (holders, [], [])
  | w :: ws =>
    if compatible w.mode holders then
      let rest := grantLoop r (holders ++ [w.granted r]) ws
      (rest.1, rest.2.1, w.granted r :: rest.2.2)
    else (holders, w :: ws, [])

/-- The record after its grant pass. -/
def ResRecord.passed (r : Word32) (x : ResRecord) : ResRecord :=
  { x with holders := (grantLoop r x.holders x.waiters).1, waiters := (grantLoop r x.holders x.waiters).2.1 }

/-- The claims a record's grant pass grants, in order. -/
def ResRecord.grants (r : Word32) (x : ResRecord) : List Claim := (grantLoop r x.holders x.waiters).2.2

/-- A record without claims is removed (R9). -/
def ResRecord.isBare (x : ResRecord) : Bool := x.holders.isEmpty && x.waiters.isEmpty

/-- The GRANTED outcome of a grant pass (R12, R41, R43). -/
def grantNote (r : Word32) (x : Word16) (c : Claim) : Outcome :=
  ⟨c.station, { kind := .granted, tag := some c.tag, resource := some x, mode := some c.mode, rotation := r,
                detail := .expiry c.expiry }⟩

/-- The records after the passes on the touched ones, in ascending resource number (R13, R9). -/
def passRecords (touched : List Word16) (r : Word32) (l : List ResRecord) : List ResRecord :=
  (l.map (fun x => if touched.contains x.resource then x.passed r else x)).filter
    (fun x => !(touched.contains x.resource && x.isBare))

/-- The outcomes of the passes on the touched records, in ascending resource number. -/
def passOutcomes (touched : List Word16) (r : Word32) (l : List ResRecord) : List Outcome :=
  l.flatMap (fun x => if touched.contains x.resource then (x.grants r).map (grantNote r x.resource) else [])

/-- The grant passes on the touched records, with grant rotation `r`; nothing is touched after them (R11, R13). -/
def App.grantPasses (a : App) (r : Word32) : App :=
  let after := passRecords a.touched r a.tbu.records
  { tbu := { a.tbu with records := after, inUse := a.tbu.inUse - (a.tbu.records.length - after.length) }
    touched := []
    out := a.out ++ passOutcomes a.touched r a.tbu.records }

/-! ### The five operations (R26 to R39) -/

/-- The outcome of an operation, with the request's tag and resource number (R43). -/
def opNote (kind : NoteKind) (s : Nat) (r : Word32) (q : Request) (mode : Option Mode) (detail : Detail) : Outcome :=
  ⟨s, { kind := kind, tag := some q.tag, resource := some q.resource, mode := mode, rotation := r, detail := detail }⟩

/-- One more outcome. -/
def App.say (a : App) (o : Outcome) : App := { a with out := a.out ++ [o] }

/-- REFUSED: the mode of the request for an ACQUIRE, absent otherwise (R43). -/
def App.refuse (a : App) (s : Nat) (r : Word32) (q : Request) (why : RefusalReason) : App :=
  a.say (opNote .refused s r q (if q.kind = .acquire then q.mode else none) (.reason why))

/-- The refusal that an ACQUIRE of station `s` meets, by the first of cases 1 to 5 of R26. -/
def Tbu.acquireRefusal (t : Tbu) (s : Nat) (x : Word16) : Option RefusalReason :=
  if ((t.find x).bind (fun r => r.holding s)).isSome then some .alreadyHeld
  else if ((t.find x).bind (fun r => r.waitingOf s)).isSome then some .alreadyWaiting
  else if Config.quota ≤ t.count s then some .quota
  else if t.free = 0 then some .claimsFull
  else if (t.find x).isNone && decide (Config.recordSlots ≤ t.inUse) then some .tableFull
  else none

/-- ACQUIRE (R26 to R30). -/
def App.acquire (s : Nat) (r : Word32) (q : Request) (m : Mode) (a : App) : App :=
  match a.tbu.acquireRefusal s q.resource with
  | some why => a.refuse s r q why
  | none =>
    if grantable m (a.tbu.find q.resource) then
      ({ a with tbu := a.tbu.addHolder q.resource ⟨s, m, q.tag, q.lease, leaseExpiry r q.lease⟩ } : App).say
        (opNote .granted s r q (some m) (.expiry (leaseExpiry r q.lease)))
    else if q.patience = 0 then a.say (opNote .busy s r q (some m) .absent)
    else
      ({ a with tbu := a.tbu.addWaiter q.resource ⟨s, m, q.tag, q.lease, patienceExpiry r q.patience⟩ } : App).say
        (opNote .queued s r q (some m)
          (.position (((a.tbu.find q.resource).map (fun x => x.waiters.length)).getD 0 + 1)))

/-- The holding claim of station `s` on a resource. -/
def Tbu.held (t : Tbu) (s : Nat) (x : Word16) : Option Claim := (t.find x).bind (fun r => r.holding s)

/-- The waiting claim of station `s` on a resource. -/
def Tbu.waitsOn (t : Tbu) (s : Nat) (x : Word16) : Option Claim := (t.find x).bind (fun r => r.waitingOf s)

/-- RELEASE (R32, R33). -/
def App.release (s : Nat) (r : Word32) (q : Request) (a : App) : App :=
  match a.tbu.held s q.resource with
  | none => a.refuse s r q .notHeld
  | some c =>
    (({ tbu := a.tbu.without (pickOne q.resource .holding s), touched := [q.resource], out := a.out } : App).say
      (opNote .released s r q (some c.mode) .absent)).grantPasses r

/-- A change of station `s`'s claim in a holder list, every other holder as it is (R2). -/
def ResRecord.changeHolder (s : Nat) (f : Claim → Claim) (r : ResRecord) : ResRecord :=
  { r with holders := r.holders.map (fun c => if c.station = s then f c else c) }

/-- A change in place of station `s`'s held claim on a resource (R2). -/
def App.changeHeld (a : App) (x : Word16) (s : Nat) (f : Claim → Claim) : App :=
  { a with tbu := { a.tbu with records := modifyRecord x (ResRecord.changeHolder s f) a.tbu.records } }

/-- A claim as a RENEW at rotation `r` leaves it (R34). -/
def Claim.renewed (r : Word32) (lease : Word16) (c : Claim) : Claim :=
  { c with lease := lease, expiry := leaseExpiry r lease }

/-- A claim as a DOWNGRADE leaves it (R38). -/
def Claim.madeShared (c : Claim) : Claim := { c with mode := .shared }

/-- RENEW (R34, R35). -/
def App.renew (s : Nat) (r : Word32) (q : Request) (a : App) : App :=
  match a.tbu.held s q.resource with
  | none => a.refuse s r q .notHeld
  | some c =>
    (a.changeHeld q.resource s (Claim.renewed r q.lease)).say
      (opNote .renewed s r q (some c.mode) (.expiry (leaseExpiry r q.lease)))

/-- WITHDRAW (R36, R37). -/
def App.withdraw (s : Nat) (r : Word32) (q : Request) (a : App) : App :=
  match a.tbu.waitsOn s q.resource with
  | none => a.refuse s r q .notWaiting
  | some c =>
    (({ tbu := a.tbu.without (pickOne q.resource .waiting s), touched := [q.resource], out := a.out } : App).say
      (opNote .withdrawn s r q (some c.mode) .absent)).grantPasses r

/-- DOWNGRADE (R38, R39). -/
def App.downgrade (s : Nat) (r : Word32) (q : Request) (a : App) : App :=
  match a.tbu.held s q.resource with
  | none => a.refuse s r q .notHeld
  | some c =>
    if c.mode = .shared then a.refuse s r q .notExclusive
    else
      (({ a.changeHeld q.resource s Claim.madeShared with touched := [q.resource] } : App).say
        (opNote .downgraded s r q (some .shared) .absent)).grantPasses r

/-- One operation of station `s` in a frame of rotation `r` (R20, R24). LIF lets no ACQUIRE through without a mode (R113). -/
def App.operation (s : Nat) (r : Word32) (a : App) (q : Request) : App :=
  match q.kind with
  | .acquire => match q.mode with
    | none => a
    | some m => a.acquire s r q m
  | .release => a.release s r q
  | .renew => a.renew s r q
  | .withdraw => a.withdraw s r q
  | .downgrade => a.downgrade s r q

/-! ### The roster (R48 to R58) -/

/-- The roster entry of a station. -/
def Tbu.entry (t : Tbu) (k : Nat) : RosterEntry := t.roster[k]?.getD .vacant

/-- Set the roster entry of a station. -/
def Tbu.setEntry (t : Tbu) (k : Nat) (e : RosterEntry) : Tbu := { t with roster := t.roster.setIfInBounds k e }

/-- Set a roster entry in an application. -/
def App.setEntry (a : App) (k : Nat) (e : RosterEntry) : App := { a with tbu := a.tbu.setEntry k e }

/-- The entry is MEMBER. -/
def RosterEntry.isMember : RosterEntry → Bool
  | .member _ => true
  | .joining _ _ => false
  | .vacant => false

/-- The entry is JOINING. -/
def RosterEntry.isJoining : RosterEntry → Bool
  | .joining _ _ => true
  | .member _ => false
  | .vacant => false

/-- The station whose entry occupies the join slot (R48). -/
def Tbu.joiner (t : Tbu) : Option Nat := (List.range 16).find? (fun k => (t.entry k).isJoining)

/-- The donor that the JOINING entry names (R53). -/
def Tbu.donor (t : Tbu) : Option Nat :=
  t.joiner.bind (fun k => match t.entry k with
    | .joining _ d => some d
    | .member _ => none
    | .vacant => none)

/-- Cancel the join of entry `k` (R57); the grant passes wait. -/
def App.cancelJoin (a : App) (k : Nat) (rotation : Word32) : App := (a.purge k rotation).setEntry k .vacant

/-- Cancel the join that names `h` as donor, if there is one (R56, R61). -/
def App.cancelServed (a : App) (h : Nat) (rotation : Word32) : App :=
  match a.tbu.joiner with
  | none => a
  | some k => if a.tbu.donor = some h then a.cancelJoin k rotation else a

/-- The donor that a JOIN of `j` finds: the first MEMBER after `j` in turn order; none when the slot is held by another
station or no donor exists, and the JOIN is ignored (R52). -/
def Tbu.joinDonor (t : Tbu) (n j : Nat) : Option Nat :=
  if t.joiner.isSome && t.joiner != some j then none
  else ((List.range (n - 1)).map (fun i => (j + 1 + i) % n)).find? (fun k => (t.entry k).isMember)

/-- The JOIN's roster effect (R52). -/
def App.joinEffect (n j : Nat) (r : Word32) (a : App) : App :=
  match a.tbu.joinDonor n j with
  | none => a
  | some d => a.setEntry j (.joining r d)

/-- The READY's roster effect (R55). -/
def App.readyEffect (j : Nat) (r : Word32) (a : App) : App :=
  if (a.tbu.entry j).isJoining then ((a.purge j r).grantPasses r).setEntry j (.member r) else a

/-- The LEAVE's roster effect (R56). -/
def App.leaveEffect (j : Nat) (r : Word32) (a : App) : App :=
  if (a.tbu.entry j).isMember then (((a.purge j r).cancelServed j r).setEntry j .vacant).grantPasses r else a

/-- The founder's own FOUND (R58). -/
def App.foundEffect (j : Nat) (r : Word32) (a : App) : App :=
  { a with tbu := { a.tbu.setEntry j (.member r) with lastApplied := some r } }

/-- The MEMBER frame's operations, when its sender is MEMBER; otherwise none of them (R22, R23). -/
def App.memberEffect (s : Nat) (r : Word32) (ops : List Request) (a : App) : App :=
  if (a.tbu.entry s).isMember then ops.foldl (App.operation s r) (a.setEntry s (.member r)) else a

/-! ### Rotation boundaries (R59 to R63) -/

/-- Step 1, join expiry (R60). -/
def App.joinExpiry (b : Word32) (a : App) : App :=
  match a.tbu.joiner with
  | none => a
  | some k =>
    match a.tbu.entry k with
    | .joining start _ => if later b (rotPlus start Config.joinLimit) then a.cancelJoin k b else a
    | .member _ => a
    | .vacant => a

/-- Step 2 at one station (R61): M is the absence limit. -/
def App.absenceAt (m : Nat) (b : Word32) (a : App) (h : Nat) : App :=
  match a.tbu.entry h with
  | .member seen =>
    if earlier (rotPlus seen m) b then ((a.purge h b).cancelServed h b).setEntry h .vacant else a
  | .joining _ _ => a
  | .vacant => a

/-- Step 2, absence, in ascending station number (R61). -/
def App.absence (n m : Nat) (b : Word32) (a : App) : App := (List.range n).foldl (App.absenceAt m b) a

/-- Step 3, lease expiry (R62). -/
def App.leaseStep (b : Word32) (a : App) : App :=
  a.remove (fun _ st c => st == .holding && expired b c.expiry) .expired b

/-- Step 4, patience expiry (R62). -/
def App.patienceStep (b : Word32) (a : App) : App :=
  a.remove (fun _ st c => st == .waiting && expired b c.expiry) .timedOut b

/-- The boundary of rotation `b`, its five steps in order (R60 to R63). -/
def App.boundary (n m : Nat) (a : App) (b : Word32) : App :=
  ((((({ a with touched := [] } : App).joinExpiry b).absence n m b).leaseStep b).patienceStep b).grantPasses b

/-- The boundaries of rotations a + 1 to a + k, in ascending order. -/
def App.boundaryRun (n m : Nat) (from_ : Word32) : Nat → App → App
  | 0, a => a
  | k + 1, a => (App.boundaryRun n m from_ k a).boundary n m (rotPlus from_ (k + 1))

/-- The boundaries that a frame of rotation `r` brings (R59). Without a last applied boundary there is nothing to count
from, and none is applied (log 20). -/
def App.boundaries (n m : Nat) (r : Word32) (a : App) : App :=
  match a.tbu.lastApplied with
  | none => a
  | some last =>
    if later r last then
      let done := App.boundaryRun n m last (r - last).toNat a
      { done with tbu := { done.tbu with lastApplied := some r } }
    else a

/-! ### The application of a committed frame (R14, R22, R51) -/

/-- An application begins. -/
def Tbu.begin (t : Tbu) : App := { tbu := t, touched := [], out := [] }

/-- The boundaries of a committed frame; a FOUND brings none (R58, R59). -/
def frameBoundaries (n m : Nat) (f : StreamFrame) (t : Tbu) : App :=
  if f.kind = .found then t.begin else t.begin.boundaries n m f.rotation

/-- The frame's own effect (R22, R52, R54, R55, R56, R58). -/
def frameEffect (n : Nat) (f : StreamFrame) (a : App) : App :=
  match f.kind with
  | .found => a.foundEffect f.sender f.rotation
  | .member => a.memberEffect f.sender f.rotation f.ops
  | .join => a.joinEffect n f.sender f.rotation
  | .loading => a
  | .ready => a.readyEffect f.sender f.rotation
  | .leave => a.leaveEffect f.sender f.rotation

/-! ### Snapshots (R18, R19, R133) -/

/-- The claims of a record, holders first. -/
def ResRecord.claims (r : ResRecord) : List Claim := r.holders ++ r.waiters

/-- The claims of the whole table. -/
def Tbu.claims (t : Tbu) : List Claim := t.records.flatMap ResRecord.claims

/-- The record items among snapshot items. -/
def recordsOf (items : List SnapItem) : List ResRecord :=
  items.filterMap (fun i => match i with | .record r => some r | .roster _ => none)

/-- The roster entries of an item, for all 16 station numbers (R48). -/
def rosterOf (es : List RosterEntry) : Vector RosterEntry 16 := Vector.ofFn (fun i => es.getD i.val .vacant)

/-- The table that the load of an image leaves (R18, R49). -/
def Tbu.ofImage (ros : RosterItem) (recs : List ResRecord) : Tbu :=
  { records := recs
    inUse := recs.length
    free := Config.claimPool - (recs.flatMap ResRecord.claims).length
    counts := Vector.ofFn (fun i => (recs.flatMap ResRecord.claims).countP (fun c => c.station == i.val))
    roster := rosterOf ros.entries
    lastApplied := some ros.lastApplied }

/-- The items of a donor's image: the roster item and one record item per record in use (R19, R133). -/
def Tbu.imageItems (t : Tbu) (n : Nat) (check : Word32) (last : FrameRef) : List SnapItem :=
  .roster ⟨t.lastApplied.getD 0, check, last, t.roster.toList.take n⟩ :: t.records.map .record

end Sys2Proof.Machine
end

