-- ==== Sys2Proof/Machine/Tracker.lean ====
section
/-! DEFINITION. The Turn Tracker (chapter 5): adoption, the passing of the turn, quiet and the listen window, and one bit
time of idling. -/

namespace Sys2Proof.Machine

/-- The tracker follows turns (R87). FOUNDING counts until its FOUND returns, which takes the station out of it. -/
def State.followsTurns (s : State) : Bool :=
  match s.stc.station with
  | .halted => false
  | .founding => false
  | .listening => s.trk.aligned
  | .joining => true
  | .loading => true
  | .member => true
  | .leaving => true
  | .detached => true

/-- The length of the listen window (R99). -/
def State.windowLength (s : State) : Nat :=
  Config.longestTurn * (2 * s.groupSize + 1) + Config.windowStagger * s.number

/-- TRK reports `k` advances of the rotation number; XFU counts them in AWAITING and GATHERING (R90, R122). -/
def Xfu.advance (x : Xfu) (k : Nat) : Xfu :=
  if x.phase = .awaiting ∨ x.phase = .gathering then { x with stall := min (x.stall + k) Config.stallLimit } else x

/-- The serial advance that an adoption reports: 0 unless the new rotation is later (R90). -/
def advanceOf (new old : Word32) : Nat := if later new old then (new - old).toNat else 0

/-- A serving plan ends; what it had not yet sent is not sent (R96, R137). -/
def State.dropPlan (s : State) : State := s.setXfu { s.xfu with plan := none }

/-- The turn passes from holder `h`: the next number, the wrap, the counts, and the own turn's beginning (R91, R95). -/
def State.passFrom (s : State) (h : Nat) : State :=
  let next := if h + 1 < s.groupSize then h + 1 else 0
  let wraps := !decide (h + 1 < s.groupSize)
  ((s.setTrk { s.trk with
      holder := some next
      rotation := if wraps then s.trk.rotation + 1 else s.trk.rotation
      moreFollows := false
      transfers := 0
      lone := min (s.trk.lone + 1) (2 * s.groupSize)
      phase := if next = s.number then .waiting else .idle }).setXfu
    (s.xfu.advance (if wraps then 1 else 0))).dropPlan

/-- The turn passes (R91); without a holder there is no turn to pass. -/
def State.passTurn (s : State) : State :=
  match s.trk.holder with
  | none => s
  | some h => s.passFrom h

/-- What adoption of a frame from `h` does beyond the holder and the rotation (R89): the aligned flag is set and the
listen window stops, another station's frame returns the lone-turn count to 0, and another station's turn ends the
station's own part in it (log 18). -/
def State.adopt (s : State) (h : Nat) (rotation : Word32) (transfers : Nat) (more : Bool) : State :=
  let t := s.setTrk { s.trk with
      holder := some h
      rotation := rotation
      aligned := true
      transfers := transfers
      moreFollows := more
      window := none
      lone := if h = s.number then s.trk.lone else 0
      phase := if h = s.number then s.trk.phase else .idle }
  let u := t.setXfu (s.xfu.advance (advanceOf rotation s.trk.rotation))
  if h = s.number then u else u.dropPlan

/-- Adoption of a valid stream frame, and the passing of the turn at its end (R89, R91). -/
def State.trackStream (s : State) (f : StreamFrame) : State :=
  let t := s.adopt f.sender f.rotation 0 f.moreFollows
  if f.moreFollows then t else t.passTurn

/-- Adoption of a valid transfer frame, and the passing of the turn at its end (R89, R91). -/
def State.trackTransfer (s : State) (f : TransferFrame) : State :=
  let count := if s.trk.holder = some f.sender then s.trk.transfers + 1 else 1
  let t := s.adopt f.sender f.donorRotation count f.moreFollows
  if f.moreFollows && decide (count < Config.transfersPerTurn) then t else t.passTurn

/-- The listen window starts, with `quiet` bit times already past, and the tracker follows no turn (R98, R99). -/
def Trk.startWindow (t : Trk) (quiet : Nat) : Trk := { t with holder := none, phase := .idle, window := some quiet }

/-- While the own turn waits to start a fault leaves the turn where it is; otherwise the turn passes (R91, R96). -/
def State.faultTurn (s : State) : State := if s.trk.phase = .waiting then s else s.passTurn

/-- A fault, or a FOUND that is taken as one (R91, R99, R100, R101). In FOUNDING it is the own FOUND, failed. -/
def State.trackFault (s : State) : State :=
  match s.stc.station with
  | .founding => s.setTrk (s.trk.startWindow Config.itemQuiet)
  | .halted => s
  | .listening => if s.trk.aligned then s.faultTurn else s.setTrk (s.trk.startWindow Config.itemQuiet)
  | .joining => s.faultTurn
  | .loading => s.faultTurn
  | .member => s.faultTurn
  | .leaving => s.faultTurn
  | .detached => s.faultTurn

/-- The item's end becomes the reference point, with 16 bit times of quiet past (R88). -/
def Trk.itemEnded (t : Trk) (endAt : Option Nat) : Trk := { t with reference := endAt, skipTimer := some Config.itemQuiet }

/-- A FOUND is adopted in LISTENING, and at its own founder in FOUNDING; elsewhere it is taken as a fault (R100, R101). -/
def State.adoptsFound (s : State) (own : Bool) : Bool :=
  match s.stc.station with
  | .listening => true
  | .founding => own
  | .halted => false
  | .joining => false
  | .loading => false
  | .member => false
  | .leaving => false
  | .detached => false

/-- TRK takes an item (R88 to R91, R101). -/
def State.trackItem (s : State) (h : Heard) (own : Bool) : State :=
  let t := s.setTrk (s.trk.itemEnded s.lif.item.endAt)
  match h with
  | .stream f => if f.kind = .found && !s.adoptsFound own then t.trackFault else t.trackStream f
  | .transfer f => t.trackTransfer f
  | .fault => t.trackFault
  | .profile _ => t.trackFault
  | .duplicate => t.trackFault

/-- Activity begins: the skip timer and the listen window stop (R88, R99). -/
def Trk.stopTimers (t : Trk) : Trk := { t with skipTimer := none, window := none }

/-- The tracker at entry to LISTENING: with the flag clear the window starts and no turn is followed (R98, R99). -/
def Trk.enterListening (t : Trk) : Trk := if t.aligned then { t with window := none } else t.startWindow 0

/-- One bit time passes with nothing commanded: the clock counts, and with the line quiet the skip timer and the listen
window count where they run (R88, R99; log 2). -/
def State.idle (s : State) : State :=
  let t := { s with clock := s.clock + 1 }
  if s.lif.receiver = .quiet then
    t.setTrk { s.trk with
      skipTimer := s.trk.skipTimer.map (fun n => min (n + 1) Config.skipQuiet)
      window := s.trk.window.map (fun n => min (n + 1) s.windowLength) }
  else t

end Sys2Proof.Machine
end

