-- ==== Sys2Proof/Machine/Control.lean ====
section
/-! DEFINITION. The Station Controller's changes of state (chapter 8), with what each orders of the other blocks: aborts,
clearings, the release of a donor image, and the STATE record. -/

namespace Sys2Proof.Machine

/-! ### Clearings -/

/-- The table, the roster and the last applied boundary are cleared (R17, R49). -/
def State.clearTable (s : State) : State := s.setTbu Tbu.cleared

/-- The stream state is cleared; last heard and FOUND reported stand on their own terms (R66, R86). -/
def Cmu.clearStream (c : Cmu) : Cmu := { Cmu.cleared with lastHeard := c.lastHeard, foundReported := c.foundReported }

/-- The stream state is cleared in the station (R86). -/
def State.clearStream (s : State) : State := s.setCmu s.cmu.clearStream

/-- XFU's joiner side is cleared (R119). -/
def Xfu.clearJoiner (x : Xfu) : Xfu :=
  { x with phase := .idle, joinMark := none, catchup := [], snapshot := none, map := Vector.replicate 65 none,
           total := none, wanted := 0, stall := 0 }

/-- XFU's donor side is cleared: the image is released, and frames of the turn not yet started are not sent (R137, R138). -/
def Xfu.release (x : Xfu) : Xfu := { x with image := none, joinerWanted := 0, plan := none }

/-- The donor image is released (R138). -/
def State.releaseImage (s : State) : State := s.setXfu s.xfu.release

/-- A transmission under way is cut: the station stops driving the line (R111). What it heard was its own frame, so the
line's activity ends with it (log 5). -/
def State.cutTransmission (s : State) : State :=
  if s.lif.transmitter = .sending then s.setPins { s.pins with lineActive := false } else s

/-! ### Changes of station state (R142) -/

/-- The station goes to LISTENING with the leave phase NONE and a STATE record (R142, R98). -/
def State.toListening (s : State) (r : StateReason) (f : Option JoinFailure) (rotation : Word32) : State :=
  ((s.setTrk s.trk.enterListening).setStc { s.stc with leave := .idle }).enter .listening r f rotation

/-- Self-absence (R153): aborts, clearing, release, LISTENING with reason ABSENT and the frame's rotation. -/
def State.absentExit (s : State) (rotation : Word32) : State :=
  (((s.abortAll s.trk.rotation).clearTable).releaseImage).toListening .absent none rotation

/-- Divergence in MEMBER or LEAVING (R152), after the DIVERGED record: aborts, clearing, release, LISTENING. -/
def State.divergedExit (s : State) : State :=
  (((s.abortAll s.trk.rotation).clearTable).releaseImage).toListening .diverged none s.trk.rotation

/-- The founder's FOUND is voided (R146): the queue is aborted, the clearings, LISTENING with reason ABSENT. As at every
clearing of the roster an image would be released (R138). -/
def State.foundVoidedExit (s : State) : State :=
  ((((s.abortOutgoing s.trk.rotation).clearStream).clearTable).releaseImage).toListening .absent none s.trk.rotation

/-- The station's own LEAVE is committed (R151), with the LEAVE's rotation. -/
def State.leaveComplete (s : State) (rotation : Word32) : State :=
  ((s.clearTable.releaseImage).setStc { s.stc with leave := .idle }).enter .detached .left none rotation

/-- The station's own READY is committed (R129, R147), with the READY's rotation. -/
def State.joinComplete (s : State) (rotation : Word32) : State :=
  (s.setXfu s.xfu.clearJoiner).enter .member .member none rotation

/-- A join attempt fails (R132, R147). -/
def State.joinFail (s : State) (f : JoinFailure) (rotation : Word32) : State :=
  (((s.setXfu s.xfu.clearJoiner).clearTable).clearStream).toListening .joinFailed (some f) rotation

/-! ### ENABLE, DISABLE and the resets -/

/-- LIF at ENABLE from HALTED (R104, R107, R118). Activity already under way has lost its start. -/
def Lif.enabled (c : ConfigCopy) (lineActive : Bool) : Lif :=
  { Lif.cleared with
    receiver := if lineActive then .active else .quiet
    item := { LineItem.blank with missedStart := lineActive }
    profile := some (profileOf c)
    rate := some c.rate }

/-- ENABLE taken in HALTED (R143). -/
def State.enableFromHalted (s : State) : State :=
  ((((((s.setLif (Lif.enabled s.stc.config s.pins.lineActive)).setTrk { Trk.cleared with window := some 0 }).setCmu
    Cmu.cleared).setTbu Tbu.cleared).setXfu Xfu.cleared).enter .listening .enabled none s.trk.rotation)

/-- ENABLE taken in DETACHED (R143): the receiver, the transmitter, the tracker and last heard go on. -/
def State.enableFromDetached (s : State) : State :=
  ((((((s.setLif { s.lif with profile := some (profileOf s.stc.config), profileReported := false,
                              duplicateReported := false }).setTrk s.trk.enterListening).setCmu
    { s.cmu.clearStream with foundReported := false }).setTbu Tbu.cleared).setXfu Xfu.cleared).enter
    .listening .enabled none s.trk.rotation)

/-- LIF after DISABLE (R118): off, the profile check and the report flags kept. The rate was kept until now (R103); DESIGN
CHOICE, log 31: in HALTED it holds none. -/
def Lif.disabled (l : Lif) : Lif :=
  { Lif.cleared with profile := l.profile, profileReported := l.profileReported, duplicateReported := l.duplicateReported }

/-- DISABLE taken outside HALTED (R154). -/
def State.disableTaken (s : State) : State :=
  (((((((s.abortAll s.trk.rotation).cutTransmission.setLif s.lif.disabled).setTrk Trk.cleared).setCmu
    { Cmu.cleared with foundReported := s.cmu.foundReported }).setTbu Tbu.cleared).setXfu Xfu.cleared).setStc
    { s.stc with leave := .idle }).enter .halted .halted none s.trk.rotation

/-- Every block as a reset leaves it, the configuration, the strap number and the local port apart (R155). -/
def State.resetBlocks (s : State) : State :=
  (((((((s.cutTransmission.setLif Lif.cleared).setTrk Trk.cleared).setCmu Cmu.cleared).setTbu Tbu.cleared).setRqu
    Rqu.cleared).setNtq Ntq.cleared).setXfu Xfu.cleared).setStc { s.stc with station := .halted, leave := .idle }

end Sys2Proof.Machine
end

