-- ==== Sys2Proof/Machine/Flags.lean ====
section
/-! DEFINITION. What the host and the board see of the state: INT (R179), TXE (R109), and the word that a read of each of
the 32 addresses returns (R180 to R185, the register map, the codes and the HEAD4 details of spec/11 section 11.4). -/

namespace Sys2Proof.Machine

/-- The INT line is asserted (R179). -/
def State.intAsserted (s : State) : Bool :=
  !s.pins.resetLow
    && ((!s.ntq.queue.isEmpty && s.lpt.irqNonEmpty) || (s.ntq.overflow && s.lpt.irqOverflow))

/-- TXE is asserted (R109). -/
def State.txeAsserted (s : State) : Bool := s.lif.transmitter == .sending

/-- Station state codes. -/
def StationState.code : StationState → Word16
  | .halted => 0
  | .listening => 1
  | .founding => 2
  | .joining => 3
  | .loading => 4
  | .member => 5
  | .leaving => 6
  | .detached => 7

/-- Result codes. -/
def Result.code : Result → Word16
  | .none => 0
  | .ok => 1
  | .badState => 2
  | .badConfig => 3
  | .badArg => 4
  | .tagBusy => 5
  | .qFull => 6
  | .inFlight => 7
  | .notFound => 8
  | .empty => 9
  | .badCmd => 10

/-- Notification kind codes. -/
def NoteKind.code : NoteKind → Word16
  | .granted => 1
  | .queued => 2
  | .busy => 3
  | .refused => 4
  | .released => 5
  | .renewed => 6
  | .withdrawn => 7
  | .downgraded => 8
  | .cancelled => 9
  | .aborted => 10
  | .timedOut => 11
  | .expired => 12
  | .lost => 13
  | .state => 14
  | .diverged => 15
  | .foreign => 16

/-- Refusal reason codes in HEAD4. -/
def RefusalReason.code : RefusalReason → Word16
  | .alreadyHeld => 1
  | .alreadyWaiting => 2
  | .quota => 3
  | .claimsFull => 4
  | .tableFull => 5
  | .notHeld => 6
  | .notWaiting => 7
  | .notExclusive => 8

/-- STATE reason codes in HEAD4. -/
def StateReason.code : StateReason → Word16
  | .enabled => 1
  | .founding => 2
  | .founded => 3
  | .collided => 4
  | .absent => 5
  | .joinSent => 6
  | .loading => 7
  | .member => 8
  | .joinFailed => 9
  | .leaving => 10
  | .left => 11
  | .diverged => 12
  | .halted => 13

/-- Failure reason codes in HEAD4. -/
def JoinFailure.code : JoinFailure → Word16
  | .diverged => 1
  | .stall => 2
  | .catchupFull => 3
  | .removed => 4

/-- The failure reason field, 0 for none. -/
def failureCode : Option JoinFailure → Word16
  | none => 0
  | some x => x.code

/-- The HEAD4 word of a record (R184, HEAD4 detail by kind). An expiry is given as an offset from the rotation. -/
def detailWord (rotation : Word32) : Detail → Word16
  | .absent => 0
  | .expiry none => 0
  | .expiry (some e) => (e - rotation).setWidth 16
  | .position n => BitVec.ofNat 16 n
  | .reason r => r.code
  | .state st r f => st.code ||| (r.code <<< 4) ||| (failureCode f <<< 8)
  | .cause .missed => 1
  | .cause .discordant => 2
  | .foreign (.profile p) => (1 <<< 8) ||| p.setWidth 16
  | .foreign (.found h) => (2 <<< 8) ||| (byteOf h).setWidth 16
  | .foreign .duplicate => 3 <<< 8

/-- HEAD0 of a record: 4-0 kind, 6-5 mode, 7 tag present, 15-8 host tag. -/
def head0 (n : Note) : Word16 :=
  n.kind.code ||| ((modeCode n.mode).setWidth 16 <<< 5) ||| (if n.tag.isSome then 0x80 else 0)
    ||| ((n.tag.getD 0).setWidth 16 <<< 8)

/-- The upper half of a 32-bit value. -/
def upper (w : Word32) : Word16 := w.extractLsb' 16 16

/-- The lower half of a 32-bit value. -/
def lower (w : Word32) : Word16 := w.extractLsb' 0 16

/-- The head-of-queue words, 0 before the first POP that returns OK (R184). -/
def headWord (h : Option Note) (i : Nat) : Word16 :=
  match h with
  | none => 0
  | some n =>
    if i = 0 then head0 n
    else if i = 1 then n.resource.getD 0
    else if i = 2 then upper n.rotation
    else if i = 3 then lower n.rotation
    else detailWord n.rotation n.detail

/-- A bit of a register word. -/
def bitAt (b : Bool) (i : Nat) : Word16 := if b then 1 <<< i else 0

/-- CONFIG as it reads (R182). DESIGN CHOICE, log 29: bits without a field read 0. -/
def configWord (c : ConfigCopy) : Word16 :=
  c.n.setWidth 16 ||| (c.rate.setWidth 16 <<< 8) ||| (c.m.setWidth 16 <<< 12)

/-- STATUS as it reads (R182). DESIGN CHOICE, log 29: bits without a field read 0. -/
def State.statusWord (s : State) : Word16 :=
  s.stc.station.code ||| bitAt s.trk.aligned 4 ||| bitAt s.lpt.writeIgnored 5 ||| bitAt s.ntq.overflow 6

/-- The word at an address; unused addresses hold 0 (R180, register map). DESIGN CHOICE, log 29: in a word with fields the
bits without one read 0. What a bus cycle drives is `State.drives`. -/
def State.readWord (s : State) (a : BitVec 5) : Word16 :=
  match a.toNat with
  | 0x00 => configWord s.stc.config
  | 0x01 => bitAt s.lpt.irqNonEmpty 0 ||| bitAt s.lpt.irqOverflow 1
  | 0x02 => s.stc.strap.setWidth 16
  | 0x03 => s.statusWord
  | 0x04 => upper s.trk.rotation
  | 0x05 => s.lpt.latch
  | 0x06 => s.lpt.cmd
  | 0x07 => s.lpt.result.code
  | 0x08 => s.lpt.stage0
  | 0x09 => s.lpt.stage1
  | 0x0A => s.lpt.stage2
  | 0x0B => s.lpt.stage3
  | 0x0C => headWord s.ntq.head 0
  | 0x0D => headWord s.ntq.head 1
  | 0x0E => headWord s.ntq.head 2
  | 0x0F => headWord s.ntq.head 3
  | 0x10 => headWord s.ntq.head 4
  | 0x11 => BitVec.ofNat 16 s.ntq.queue.length
  | 0x12 => BitVec.ofNat 16 s.ntq.lost
  | 0x13 => s.lpt.inqKey
  | 0x14 => s.lpt.inq0
  | 0x15 => s.lpt.inq1
  | 0x16 => s.lpt.inq2
  | _ => 0

end Sys2Proof.Machine
end

