-- ==== Sys2Proof/Machine/Inquiry.lean ====
section
/-! DEFINITION. The answer of INQUIRE: the view of one resource record (R16) and its words (R185). -/

namespace Sys2Proof.Machine

/-- The three inquiry result words. -/
structure InquiryWords where
  inq0 : Word16
  inq1 : Word16
  inq2 : Word16
deriving DecidableEq, Repr

/-- The index of a station's claim in a wait list, counting the head as 1 (R3). -/
def positionOf (s : Nat) (l : List Claim) : Nat := l.findIdx (fun c => c.station == s) + 1

/-- The holder field: 0 absent, the number of SHARED holders, or 31 for one EXCLUSIVE holder (R185). -/
def holderField : Option ResRecord → Nat
  | none => 0
  | some r => if hasExclusive r.holders then 31 else r.holders.length

/-- The waiter count (R185). -/
def waiterField : Option ResRecord → Nat
  | none => 0
  | some r => r.waiters.length

/-- The own claim of a record: its code (16 HOLDING, or its position) and the claim (R16, R185). -/
def ownClaim (number : Nat) : Option ResRecord → Option (Nat × Claim)
  | none => none
  | some r =>
    match r.holding number with
    | some c => some (16, c)
    | none => (r.waitingOf number).map (fun c => (positionOf number r.waiters, c))

/-- INQ0 to INQ2 for a record, for the station of a number (R185). -/
def inquiryWords (number : Nat) (r : Option ResRecord) : InquiryWords :=
  let base : Word16 := (BitVec.ofNat 16 (holderField r) <<< 11) ||| (BitVec.ofNat 16 (waiterField r) <<< 7)
  match ownClaim number r with
  | none => ⟨base, 0, 0⟩
  | some (code, c) =>
    ⟨base ||| (BitVec.ofNat 16 code <<< 2) ||| (if c.mode = .exclusive then 2 else 0)
        ||| (if c.expiry.isNone then 1 else 0),
      (c.expiry.getD 0).extractLsb' 16 16, (c.expiry.getD 0).extractLsb' 0 16⟩

end Sys2Proof.Machine
end

