-- ==== Sys2Proof/Machine/HostCommands.lean ====
section
/-! DEFINITION. The commands the host writes to CMD (chapter 11, R183): each takes its action and then leaves its code in
CMD and its result in RESULT. While RESET is low none is taken (R155, R180). -/

namespace Sys2Proof.Machine

/-! ### The actions -/

/-- ENABLE (R143). -/
def State.hostEnable (s : State) : State :=
  match s.stc.station with
  | .halted =>
    if configValid s.stc.config s.number then s.enableFromHalted.answer 1 .ok else s.answer 1 .badConfig
  | .detached => s.enableFromDetached.answer 1 .ok
  | .listening => s.answer 1 .badState
  | .founding => s.answer 1 .badState
  | .joining => s.answer 1 .badState
  | .loading => s.answer 1 .badState
  | .member => s.answer 1 .badState
  | .leaving => s.answer 1 .badState

/-- LEAVE (R148). -/
def State.hostLeave (s : State) : State :=
  if s.stc.station = .member then
    (((s.abortOutgoing s.trk.rotation).setStc { s.stc with leave := .draining }).enter .leaving .leaving none
      s.trk.rotation).answer 2 .ok
  else s.answer 2 .badState

/-- DISABLE (R154). -/
def State.hostDisable (s : State) : State :=
  if s.stc.station = .halted then s.answer 3 .ok else s.disableTaken.answer 3 .ok

/-- PORT RESET (R155, R183): the interrupt enables are kept; every other word is as after a pin reset, but for CMD, which
reads 4, and RESULT, which is OK. -/
def State.hostPortReset (s : State) : State :=
  s.resetBlocks.setLpt
    { Lpt.cleared with
      irqNonEmpty := s.lpt.irqNonEmpty, irqOverflow := s.lpt.irqOverflow, cmd := 4, result := .ok,
      readData := s.lpt.readData }

/-- The result of a POST, by the first check that fails (R157). -/
def State.postResult (s : State) : Result :=
  if s.stc.station ≠ .member then .badState
  else match s.lpt.stagedRequest with
    | none => .badArg
    | some q =>
      if s.rqu.live.contains q.tag then .tagBusy
      else if Config.requestPlaces ≤ s.rqu.live.length then .qFull
      else .ok

/-- POST (R157). -/
def State.hostPost (s : State) : State :=
  match s.postResult, s.lpt.stagedRequest with
  | .ok, some q => (s.setRqu (s.rqu.accept q)).answer 5 .ok
  | r, _ => s.answer 5 r

/-- CANCEL (R167). -/
def State.hostCancel (s : State) : State :=
  let tag := stageTag s.lpt.stage0
  match s.rqu.queuedWith tag with
  | some q => ((s.setRqu (s.rqu.cancelTag tag)).offer (requestNote .cancelled s.trk.rotation q)).answer 6 .ok
  | none => if s.rqu.inflight.any (fun q => q.tag == tag) then s.answer 6 .inFlight else s.answer 6 .notFound

/-- POP (R177). -/
def State.hostPop (s : State) : State :=
  match s.ntq.queue with
  | [] => s.answer 7 .empty
  | n :: rest => (s.setNtq { s.ntq with queue := rest, head := some n }).answer 7 .ok

/-- CLEAR LOST (R178). -/
def State.hostClearLost (s : State) : State := (s.setNtq { s.ntq with lost := 0, overflow := false }).answer 8 .ok

/-- INQUIRE (R16). -/
def State.hostInquire (s : State) : State :=
  if s.stc.station = .member ∨ s.stc.station = .leaving then
    if s.lpt.inqKey = 0 then s.answer 9 .badArg
    else
      let w := inquiryWords s.number (s.tbu.find s.lpt.inqKey)
      (s.setLpt { s.lpt with inq0 := w.inq0, inq1 := w.inq1, inq2 := w.inq2 }).answer 9 .ok
  else s.answer 9 .badState

/-- A code that names no command: CMD is left as it was (R183). -/
def State.hostBadCode (s : State) : State := s.setLpt { s.lpt with result := .badCmd }

/-- A write of a code to CMD (R183). -/
def State.hostCommand (s : State) (code : Word16) : State :=
  if code = 1 then s.hostEnable
  else if code = 2 then s.hostLeave
  else if code = 3 then s.hostDisable
  else if code = 4 then s.hostPortReset
  else if code = 5 then s.hostPost
  else if code = 6 then s.hostCancel
  else if code = 7 then s.hostPop
  else if code = 8 then s.hostClearLost
  else if code = 9 then s.hostInquire
  else s.hostBadCode

/-! ### The meanings of the rows -/

/-- ENABLE (R143). -/
def execEnable (s : State) : Host.Outcome State Fault Refusal := .next (s.unlessHeld s.hostEnable)

/-- LEAVE (R148). -/
def execLeave (s : State) : Host.Outcome State Fault Refusal := .next (s.unlessHeld s.hostLeave)

/-- DISABLE (R154). -/
def execDisable (s : State) : Host.Outcome State Fault Refusal := .next (s.unlessHeld s.hostDisable)

/-- PORT_RESET (R155). -/
def execPortReset (s : State) : Host.Outcome State Fault Refusal := .next (s.unlessHeld s.hostPortReset)

/-- POST (R157). -/
def execPost (s : State) : Host.Outcome State Fault Refusal := .next (s.unlessHeld s.hostPost)

/-- CANCEL (R167). -/
def execCancel (s : State) : Host.Outcome State Fault Refusal := .next (s.unlessHeld s.hostCancel)

/-- POP (R177). -/
def execPop (s : State) : Host.Outcome State Fault Refusal := .next (s.unlessHeld s.hostPop)

/-- CLEAR_LOST (R178). -/
def execClearLost (s : State) : Host.Outcome State Fault Refusal := .next (s.unlessHeld s.hostClearLost)

/-- INQUIRE (R16). -/
def execInquire (s : State) : Host.Outcome State Fault Refusal := .next (s.unlessHeld s.hostInquire)

/-- BADCMD (R183). A `code` that names a command is not well formed here; that write is the command's own row. -/
def execBadCmd (code : Word16) (s : State) : Host.Outcome State Fault Refusal :=
  .next (s.unlessHeld (s.hostCommand code))

end Sys2Proof.Machine
end

