-- ==== Sys2Proof/Machine/Commit.lean ====
section
/-! DEFINITION. The Commit Unit (chapter 4): holes, resolution by echo, the stream check, the own mark and its fate, the
hand-over of a committed frame to the Table Unit with the reports that follow, and divergence. -/

namespace Sys2Proof.Machine

/-! ### The stream check (R76, R77) -/

/-- Fold a frame check into the stream check (R76). -/
def foldCheck (c f : Word32) : Word32 := crc (bytes32 c ++ bytes32 f)

/-- The echo of a frame the station sends as a replica: P, or L when there is no P (R77). -/
def Cmu.ownEcho (c : Cmu) : Option FrameRef :=
  match c.waiting with
  | some p => some p.ref
  | none => c.last

/-- The stream check of a frame the station sends as a replica: the C that its echo would result in (R77). -/
def Cmu.ownCheck (c : Cmu) : Word32 :=
  match c.waiting with
  | some p => foldCheck c.check p.check
  | none => c.check

/-! ### Holes (R69) -/

/-- The own mark after an own hole: the first own item other than a bare MEMBER frame takes it (R69, R78). -/
def markHole (m : Option OwnMark) (own : Option OwnItem) : Option OwnMark :=
  match m, own with
  | some x, _ => some x
  | none, some o => if o.bare then none else some ⟨o.id, o.kind, true⟩
  | none, none => none

/-- A fault reaches the replica (R69). -/
def Cmu.hole (c : Cmu) (own : Option OwnItem) : Cmu :=
  { c with holes := min (c.holes + 1) Config.countLimit, ownMark := markHole c.ownMark own }

/-- A fault reaches the replica, in the station (R69). -/
def State.cmuHole (s : State) (own : Option OwnItem) : State := s.setCmu (s.cmu.hole own)

/-! ### How an echo resolves (R70 to R73) -/

/-- What a valid stream frame does at a replica. -/
inductive Resolution where
  /-- its echo names P: P is committed (R70) -/
  | commit (p : StreamFrame)
  /-- its echo names L, or both are none: P is voided (R71) -/
  | void
  /-- it contradicts the stream state and is counted (R72, R73) -/
  | discordant
  /-- its echo is unknown with holes pending: the station is diverged (R72) -/
  | diverged
deriving DecidableEq, Repr

/-- The stream check carried in a frame agrees with a value; a frame without one passes (R73). -/
def checkAgrees (carried : Option Word32) (value : Word32) : Bool :=
  match carried with
  | none => true
  | some v => v == value

/-- The echo does not name P: it names L, or both are none, or it is unknown (R71, R72). -/
def Cmu.resolutionByLast (c : Cmu) (g : StreamFrame) : Resolution :=
  if g.echo = c.last then
    if checkAgrees g.streamCheck c.check then .void else .discordant
  else if c.holes = 0 then .discordant else .diverged

/-- The resolution of a valid stream frame against the stream state (R70 to R73). -/
def Cmu.resolution (c : Cmu) (g : StreamFrame) : Resolution :=
  match c.waiting with
  | some p =>
    if g.echo = some p.ref then
      if checkAgrees g.streamCheck (foldCheck c.check p.check) then .commit p else .discordant
    else c.resolutionByLast g
  | none => c.resolutionByLast g

/-! ### The fate of the station's own item (R79, R80) -/

/-- RQU learns that the frame of an identity was voided (R165, R149). -/
def State.rquVoided (s : State) (id : FrameId) : State :=
  if s.rqu.carrier = some id then
    if s.stc.station = .leaving then (s.setRqu s.rqu.requeue).abortOutgoing s.trk.rotation else s.setRqu s.rqu.requeue
  else s

/-- STC learns that the item of the own mark was voided (R80, R146, R150). -/
def State.stcVoided (s : State) (m : OwnMark) : State :=
  if m.kind = .stream .found then s.foundVoidedExit
  else if m.kind = .stream .leave && !m.hole && decide (s.stc.station = .leaving) then
    s.setStc { s.stc with leave := .draining }
  else s

/-- CMU reports the fate of the item the own mark names: committed when it was P and P was committed (`committed`),
voided otherwise. RQU takes it by identity (R163 to R165); in LEAVING a void aborts what it returns (R149). STC takes the
void of a LEAVE that was P (R150; log 16) and of a FOUND (R146). -/
def State.reportFate (s : State) (committed : Bool) : State :=
  match s.cmu.ownMark with
  | none => s
  | some m =>
    if committed && !m.hole then s.setRqu (s.rqu.frameCommitted m.id)
    else (s.rquVoided m.id).stcVoided m

/-! ### The hand-over of a committed frame (R81) -/

/-- Write the outcomes that name this station, in order (R15). -/
def State.route (s : State) (out : List Outcome) : State :=
  s.offerAll ((out.filter (fun o => o.station == s.number)).map (·.note))

/-- TBU hands RQU the results of the station's own MEMBER frame, or tells it that they were discarded (R23, R25, R164). -/
def State.takeResults (s : State) (p : StreamFrame) (discarded : Bool) : State :=
  if p.kind = .member && decide (p.sender = s.number) then
    if discarded then s.abortDiscarded p.ops.length p.rotation else s.setRqu (s.rqu.endResults p.ops.length)
  else s

/-- The donor of this JOIN's entry is this station: the image is taken, from the table as the application left it and
from C and L (R53, R133). -/
def State.captureImage (s : State) (p : StreamFrame) : State :=
  s.setXfu { s.xfu with
    image := some ⟨p.rotation, p.sender, s.tbu.imageItems s.groupSize s.cmu.check (s.cmu.last.getD p.ref)⟩
    joinerWanted := 0
    plan := none }

/-- At the end of an application: the image is taken when the JOIN just applied names this station, and released when
the roster's JOINING entry does not name it (R53, R138). -/
def State.syncImage (s : State) (p : StreamFrame) (named : Bool) : State :=
  if named then s.captureImage p
  else if s.tbu.donor = some s.number then s
  else s.releaseImage

/-- The JOIN gives its sender a donor, and the donor is this station (R52, R53). -/
def State.namedDonor (s : State) (p : StreamFrame) (bounded : Tbu) : Bool :=
  decide (p.kind = .join) && decide (bounded.joinDonor s.groupSize p.sender = some s.number)

/-- In MEMBER or LEAVING: the own entry became NONE at a boundary, or by the station's own LEAVE (R65, R151, R153). -/
def State.memberReport (s : State) (p : StreamFrame) (before bounded : Tbu) : State :=
  if (before.entry s.number).isMember && !(bounded.entry s.number).isMember then s.absentExit p.rotation
  else if p.kind = .leave && decide (p.sender = s.number) && (bounded.entry s.number).isMember then
    s.leaveComplete p.rotation
  else s

/-- The reports TBU makes of the station's own entry at the end of an application, and what STC does (R64, R65, R130,
R151, R153). `before` and `bounded` are the tables before the application and after its boundaries. -/
def State.ownEntryReport (s : State) (p : StreamFrame) (before bounded : Tbu) : State :=
  match s.stc.station with
  | .member => s.memberReport p before bounded
  | .leaving => s.memberReport p before bounded
  | .loading =>
    match s.tbu.entry s.number with
    | .joining _ _ => s
    | .member _ =>
      if p.kind = .ready && decide (p.sender = s.number) then s.joinComplete p.rotation else s.joinFail .removed p.rotation
    | .vacant => s.joinFail .removed p.rotation
  | .halted => s
  | .listening => s
  | .founding => s
  | .joining => s
  | .detached => s

/-- TBU applies a committed frame as one application: its boundaries, its effect, the records for this station, the
results for RQU, the image, and the reports of the own entry (R14, R22, R51, R81). -/
def State.applyCommitted (s : State) (p : StreamFrame) : State :=
  let bounded := frameBoundaries s.groupSize s.absenceLimit p s.tbu
  let done := frameEffect s.groupSize p bounded
  let discarded := !(bounded.tbu.entry p.sender).isMember
  ((((s.setTbu done.tbu).route done.out).takeResults p discarded).syncImage p
    (s.namedDonor p bounded.tbu)).ownEntryReport p s.tbu bounded.tbu

/-- The station is a replica that goes on resolving after a resolution (R67, R81). -/
def State.isReplica (s : State) : Bool :=
  match s.stc.station with
  | .loading => s.xfu.phase == .replaying || s.xfu.phase == .confirming
  | .member => true
  | .leaving => true
  | .halted => false
  | .listening => false
  | .founding => false
  | .joining => false
  | .detached => false

/-! ### Resolution (R70, R71, R74, R75, R84) -/

/-- G becomes the new P and the counts return to 0; G takes the own mark when it is the station's own and not a bare
MEMBER frame (R75). -/
def Cmu.clean (c : Cmu) (g : StreamFrame) (own : Bool) : Cmu :=
  { c with
    waiting := some g
    holes := 0
    discordance := 0
    discordSender := none
    ownMark := if own && !g.isBare then some ⟨g.id, .stream g.kind, false⟩ else none }

/-- The end of a resolution: G becomes P, unless the station has left the replica states (R75, R81). -/
def State.finishResolution (s : State) (g : StreamFrame) (own : Bool) : State :=
  if s.isReplica then s.setCmu (s.cmu.clean g own) else s.clearStream

/-- P is committed: folded, made L, applied; then the fate of the own item is reported (R70, R79). -/
def State.commitWaiting (s : State) (p g : StreamFrame) (own : Bool) : State :=
  let t := (s.setCmu { s.cmu with check := foldCheck s.cmu.check p.check, last := some p.ref, waiting := none }).applyCommitted p
  ((if t.isReplica then t.reportFate true else t)).finishResolution g own

/-- P and every hole are voided, and the fate of the own item is reported (R71, R79). -/
def State.voidWaiting (s : State) (g : StreamFrame) (own : Bool) : State :=
  (s.reportFate false).finishResolution g own

/-- The station is diverged by G (R84): a DIVERGED record in MEMBER or LEAVING, with the exit of R152; a failed join in
LOADING. The stream state is cleared and last heard kept. DESIGN CHOICE, log 28: in replay too, where last heard is the
latest frame of the line and G an older one from the queue. -/
def State.diverge (s : State) (g : StreamFrame) (cause : DivergeCause) : State :=
  if s.stc.station = .loading then s.joinFail .diverged s.trk.rotation
  else (((s.offer (stationNote .diverged g.rotation (.cause cause))).clearStream).divergedExit)

/-- A discordant frame is ignored and counted; a second one from another sender reveals divergence (R74). -/
def State.discord (s : State) (g : StreamFrame) : State :=
  if s.cmu.discordance = 0 then
    s.setCmu { s.cmu with discordance := 1, discordSender := some g.sender }
  else if s.cmu.discordSender = some g.sender then s
  else s.diverge g .discordant

/-- A valid stream frame other than a FOUND is resolved at a replica (R70 to R75, R84). -/
def State.resolve (s : State) (g : StreamFrame) (own : Bool) : State :=
  match s.cmu.resolution g with
  | .commit p => s.commitWaiting p g own
  | .void => s.voidWaiting g own
  | .discordant => s.discord g
  | .diverged => s.diverge g .missed

/-- Last heard is the identity and frame check of the frame (R68). -/
def State.hear (s : State) (f : StreamFrame) : State := s.setCmu { s.cmu with lastHeard := some f.ref }

/-! ### FOUND frames (R82, R83) -/

/-- A FOREIGN record (R107). -/
def foreignNote (rotation : Word32) (d : ForeignDetail) : Note := stationNote .foreign rotation (.foreign d)

/-- A FOUND heard as a replica is ignored; the first after ENABLE is reported, with the tracker's rotation `rotation` at
its delivery (R82, R107). -/
def State.ignoreFound (s : State) (f : StreamFrame) (rotation : Word32) : State :=
  if s.cmu.foundReported then s
  else (s.setCmu { s.cmu with foundReported := true }).offer (foreignNote rotation (.found f.sender))

/-- The own FOUND returns valid: it becomes P of a new stream, and the station is MEMBER (R83, R145). -/
def State.founded (s : State) (f : StreamFrame) : State :=
  (s.setCmu { Cmu.cleared with
    waiting := some f
    ownMark := some ⟨f.id, .stream .found, false⟩
    lastHeard := some f.ref
    foundReported := s.cmu.foundReported }).enter .member .founded none s.trk.rotation

/-- The own FOUND returns as a fault: the station is LISTENING again, its window already restarted (R83, R100, R145). -/
def State.collided (s : State) : State := s.enter .listening .collided none s.trk.rotation

end Sys2Proof.Machine
end

