-- ==== Sys2Proof/Machine/Transfer.lean ====
section
/-! DEFINITION. The Transfer Unit (chapter 7): the fate of a JOIN, the catch-up queue, the assembly of a snapshot, replay,
and the donor's reading of its joiner's requests. -/

namespace Sys2Proof.Machine

/-! ### The catch-up queue (R124) -/

/-- Append an entry at the tail; with 48 entries held the attempt fails (R124, R132). -/
def State.catchAppend (s : State) (e : CatchEntry) : State :=
  if s.xfu.catchup.length < Config.catchupPlaces then s.setXfu { s.xfu with catchup := s.xfu.catchup ++ [e] }
  else s.joinFail .catchupFull s.trk.rotation

/-- The entry is a hole marker. -/
def CatchEntry.isHole : CatchEntry → Bool
  | .hole _ => true
  | .frame _ _ => false

/-! ### The JOIN and its fate (R120, R121, R123) -/

/-- Entry to GATHERING, with the identity and check of the JOIN whose fate is committed (R123). -/
def State.enterGathering (s : State) (join : FrameRef) : State :=
  (s.setXfu { s.xfu with
    phase := .gathering, joinMark := none, snapshot := some join, map := Vector.replicate 65 none, total := none,
    wanted := 0, stall := 0 }).enter .loading .loading none s.trk.rotation

/-- The JOIN returns by loopback: valid, and its mark takes the check; a fault, and the mark is none (R120). -/
def State.joinLoopback (s : State) (id : FrameId) (h : Heard) : State :=
  match h with
  | .stream f => s.setXfu { s.xfu with joinMark := some ⟨id, some f.check⟩ }
  | .transfer _ => s
  | .fault => s.setXfu { s.xfu with joinMark := none }
  | .profile _ => s.setXfu { s.xfu with joinMark := none }
  | .duplicate => s.setXfu { s.xfu with joinMark := none }

/-- The first valid stream frame after the JOIN decides its fate (R121). -/
def State.joinFate (s : State) (join : FrameRef) (g : StreamFrame) (own : Bool) : State :=
  if g.echo = some join then
    if s.xfu.catchup.length < Config.catchupPlaces then (s.catchAppend (.frame g own)).enterGathering join
    else s.joinFail .catchupFull s.trk.rotation
  else if s.xfu.catchup.any CatchEntry.isHole then s.joinFail .diverged s.trk.rotation
  else s.setXfu { s.xfu with catchup := [], joinMark := none }

/-- An item in phase AWAITING (R120, R121). -/
def State.awaitItem (s : State) (h : Heard) (own : Bool) (sent : Option OwnItem) : State :=
  match s.xfu.joinMark with
  | none => s
  | some ⟨id, none⟩ => if own then s.joinLoopback id h else s
  | some ⟨id, some check⟩ =>
    match h with
    | .stream g => if g.kind = .found then s else s.joinFate ⟨id, check⟩ g own
    | .transfer _ => s
    | .fault => s.catchAppend (.hole sent)
    | .profile _ => s.catchAppend (.hole sent)
    | .duplicate => s.catchAppend (.hole sent)

/-! ### Gathering (R125, R126) -/

/-- The item in a slot of the assembly map. -/
def Xfu.slot (x : Xfu) (i : Nat) : Option SnapItem := x.map[i]?.getD none

/-- Write items into the map from an index on (R125). -/
def fillMap (m : Vector (Option SnapItem) 65) : Nat → List SnapItem → Vector (Option SnapItem) 65
  | _, [] => m
  | i, it :: rest => fillMap (m.setIfInBounds i (some it)) (i + 1) rest

/-- The wanted index: the lowest empty slot below the total, or the total (R126). -/
def wantedOf (m : Vector (Option SnapItem) 65) (total : Nat) : Nat :=
  ((List.range total).find? (fun i => (m[i]?.getD none).isNone)).getD total

/-- A transfer frame is for this joiner and its snapshot, and it agrees with the total and the JOIN (R125). -/
def State.storable (s : State) (t : TransferFrame) : Bool :=
  match s.xfu.snapshot with
  | none => false
  | some snap =>
    decide (t.joiner = s.number) && decide (t.snapRotation = snap.id.rotation)
      && (match s.xfu.total with | none => true | some n => decide (n = t.total))
      && t.items.all (fun i => match i with | .roster r => decide (r.last = snap) | .record _ => true)

/-- Resource numbers in strictly ascending order. -/
def ascending : List ResRecord → Bool
  | [] => true
  | [_] => true
  | a :: b :: rest => decide (a.resource < b.resource) && ascending (b :: rest)

/-- The items of a complete map form one image (R125). -/
def oneImage (ros : RosterItem) (recs : List ResRecord) : Bool :=
  ascending recs
    && recs.all (fun r => !r.holders.isEmpty && (!hasExclusive r.holders || decide (r.holders.length = 1)))
    && decide ((recs.flatMap ResRecord.claims).length ≤ Config.claimPool)
    && (List.range 16).all (fun k =>
        decide ((recs.flatMap ResRecord.claims).countP (fun c => c.station == k) ≤ Config.quota))
    && decide (ros.entries.countP RosterEntry.isJoining ≤ 1)

/-- Replay is over when nothing is left to hand (R128). -/
def State.endReplay (s : State) : State :=
  if s.xfu.phase = .replaying ∧ s.xfu.catchup = [] then s.setXfu { s.xfu with phase := .confirming } else s

/-- Replay begins: TBU loads the image and CMU takes its stream state from the roster item in one step; a station whose
own entry is not JOINING is removed (R18, R85, R127, R130). -/
def State.startReplay (s : State) (ros : RosterItem) (recs : List ResRecord) (total : Nat) : State :=
  let loaded := ((s.setXfu { s.xfu with phase := .replaying, map := Vector.replicate 65 none, wanted := total }).setTbu
    (Tbu.ofImage ros recs)).setCmu
    { s.cmu.clearStream with last := some ros.last, check := ros.streamCheck }
  if (loaded.tbu.entry loaded.number).isJoining then loaded.endReplay else loaded.joinFail .removed s.trk.rotation

/-- The map, the total and the wanted index start over; the stall count is not reset (R125). -/
def State.regather (s : State) : State :=
  s.setXfu { s.xfu with map := Vector.replicate 65 none, total := none, wanted := 0 }

/-- A complete map is checked, and replay begins or gathering starts over (R125). -/
def State.checkMap (s : State) (total : Nat) : State :=
  let items := (List.range total).filterMap s.xfu.slot
  if items.length = total then
    match items with
    | .roster ros :: rest =>
      if oneImage ros (recordsOf rest) then s.startReplay ros (recordsOf rest) total else s.regather
    | _ => s.regather
  else s

/-- A transfer frame is stored (R125). -/
def State.storeTransfer (s : State) (t : TransferFrame) : State :=
  if s.storable t then
    let m := fillMap s.xfu.map t.first t.items
    let fresh := (List.range t.items.length).any (fun i => (s.xfu.slot (t.first + i)).isNone)
    (s.setXfu { s.xfu with
      map := m, total := some t.total, wanted := wantedOf m t.total,
      stall := if fresh then 0 else s.xfu.stall }).checkMap t.total
  else s

/-- An item in GATHERING or REPLAYING goes to the catch-up queue (R124). -/
def State.catchItem (s : State) (h : Heard) (own : Bool) (sent : Option OwnItem) : State :=
  match h with
  | .stream g => if g.kind = .found then s else s.catchAppend (.frame g own)
  | .transfer t => if s.xfu.phase = .gathering then s.storeTransfer t else s
  | .fault => s.catchAppend (.hole sent)
  | .profile _ => s.catchAppend (.hole sent)
  | .duplicate => s.catchAppend (.hole sent)

/-! ### Replay (R128) -/

/-- CMU resolves an entry exactly as an item from LIF (R85, R128). -/
def State.resolveEntry (s : State) (e : CatchEntry) : State :=
  match e with
  | .frame g own => s.resolve g own
  | .hole own => s.cmuHole own

/-- XFU hands CMU the oldest entry; when none is left, replay ends (R128; log 11). -/
def State.replayNext (s : State) : State :=
  match s.xfu.catchup with
  | [] => s.endReplay
  | e :: rest => ((s.setXfu { s.xfu with catchup := rest }).resolveEntry e).endReplay

/-! ### The donor (R134) -/

/-- The donor reads its joiner's request from a valid LOADING or READY frame (R134). -/
def Xfu.readRequest (x : Xfu) (g : StreamFrame) : Xfu :=
  match x.image with
  | none => x
  | some img =>
    if g.sender = img.joiner then
      if g.kind = .loading then { x with joinerWanted := min g.wanted img.items.length }
      else if g.kind = .ready then { x with joinerWanted := img.items.length }
      else x
    else x

/-- XFU takes an item as its state calls for (R105, R119). -/
def State.xfuItem (s : State) (h : Heard) (own : Bool) (sent : Option OwnItem) : State :=
  match s.xfu.phase with
  | .awaiting => s.awaitItem h own sent
  | .gathering => s.catchItem h own sent
  | .replaying => s.catchItem h own sent
  | .confirming => s
  | .idle =>
    match h with
    | .stream g => s.setXfu (s.xfu.readRequest g)
    | .transfer _ => s
    | .fault => s
    | .profile _ => s
    | .duplicate => s

end Sys2Proof.Machine
end

