-- ==== Sys2Proof/Machine/Delivery.lean ====
section
/-! DEFINITION. The Line Interface (chapter 6) and the starts of frames: collecting an item, its delivery to TRK, CMU, XFU
and STC (R104, R105), and what the station sends in its own turn (R95, R96, R109, R135, R144). -/

namespace Sys2Proof.Machine

/-! ### Collecting an item (R104) -/

/-- LIF stores further bits of the current item, up to 641 bytes (R104). -/
def LineItem.collect (i : LineItem) (bits : List Bool) : LineItem :=
  { i with bits := (i.bits ++ bits).take (8 * Config.longestItem)
           tooLong := i.tooLong || decide (8 * Config.longestItem < (i.bits ++ bits).length) }

/-- Activity begins (R88, R104). The line is active whatever the receiver's state. -/
def State.activityStarts (s : State) : State :=
  let t := s.setPins { s.pins with lineActive := true }
  match s.lif.receiver with
  | .off => t
  | .quiet => (t.setLif { s.lif with receiver := .active, item := LineItem.blank }).setTrk s.trk.stopTimers
  | .active => t
  | .trailing => t.setLif { s.lif with receiver := .active, item := { s.lif.item with endAt := none } }

/-- Activity stops, with the bits LIF collected in it (R104). While the station itself is sending, every bit time holds a
transition, and the activity goes on. -/
def State.activityEnds (s : State) (bits : List Bool) : State :=
  if s.lif.transmitter = .sending then s
  else
    let t := s.setPins { s.pins with lineActive := false }
    match s.lif.receiver with
    | .active =>
      t.setLif { s.lif with receiver := .trailing
                            item := { s.lif.item.collect bits with endAt := some s.clock } }
    | .off => t
    | .quiet => t
    | .trailing => t

/-! ### Delivery (R105) -/

/-- What LIF makes of the item it holds (R104, R106, R110). -/
def State.heard (s : State) : Heard :=
  if s.lif.item.missedStart || s.lif.item.tooLong || s.lif.item.mismatch then .fault
  else classify s.profile s.groupSize s.number s.lif.item.own s.lif.item.bits

/-- LIF's own FOREIGN reports, each once per ENABLE (R107, R108). -/
def State.lifReport (s : State) (h : Heard) : State :=
  match h with
  | .profile p =>
    if s.lif.profileReported then s
    else (s.setLif { s.lif with profileReported := true }).offer (foreignNote s.trk.rotation (.profile p))
  | .duplicate =>
    if s.lif.duplicateReported then s
    else (s.setLif { s.lif with duplicateReported := true }).offer (foreignNote s.trk.rotation .duplicate)
  | .stream _ => s
  | .transfer _ => s
  | .fault => s

/-- The item is handed on and the receiver is QUIET (R104). -/
def State.itemTaken (s : State) : State :=
  s.setLif { s.lif with receiver := .quiet, item := LineItem.blank, sent := none }

/-- An item at a replica: a fault is a hole, a stream frame is resolved, a FOUND is ignored (R67, R69, R82). -/
def State.replicaItem (s : State) (h : Heard) (own : Bool) (sent : Option OwnItem) (rotation : Word32) : State :=
  match h with
  | .stream f => if f.kind = .found then s.ignoreFound f rotation else (s.hear f).resolve f own
  | .transfer _ => s
  | .fault => s.cmuHole sent
  | .profile _ => s.cmuHole sent
  | .duplicate => s.cmuHole sent

/-- An item where CMU does not resolve: a stream frame updates last heard; a FOUND only when `found` (R67, R68). -/
def State.listenItem (s : State) (h : Heard) (found : Bool) : State :=
  match h with
  | .stream f => if f.kind = .found && !found then s else s.hear f
  | .transfer _ => s
  | .fault => s
  | .profile _ => s
  | .duplicate => s

/-- The loopback of the own FOUND (R83, R145). -/
def State.foundLoopback (s : State) (h : Heard) (own : Bool) : State :=
  if own then
    match h with
    | .stream f => if f.kind = .found then s.founded f else s.collided
    | .transfer _ => s.collided
    | .fault => s.collided
    | .profile _ => s.collided
    | .duplicate => s.collided
  else s

/-- A FOUND heard during replay is ignored as at any replica (R67, R82). -/
def State.replayingItem (s : State) (h : Heard) (rotation : Word32) : State :=
  match h with
  | .stream f => if f.kind = .found then s.ignoreFound f rotation else s.hear f
  | .transfer _ => s
  | .fault => s
  | .profile _ => s
  | .duplicate => s

/-- CMU takes an item as R67 gives for the station state. `rotation` is the tracker's before the item (log 9). -/
def State.cmuItem (s : State) (h : Heard) (own : Bool) (sent : Option OwnItem) (rotation : Word32) : State :=
  match s.stc.station with
  | .halted => s
  | .listening => s.listenItem h true
  | .founding => s.foundLoopback h own
  | .joining => s.listenItem h false
  | .loading =>
    match s.xfu.phase with
    | .confirming => s.replicaItem h own sent rotation
    | .replaying => s.replayingItem h rotation
    | .gathering => s.listenItem h false
    | .awaiting => s.listenItem h false
    | .idle => s.listenItem h false
  | .member => s.replicaItem h own sent rotation
  | .leaving => s.replicaItem h own sent rotation
  | .detached => s.listenItem h false

/-- The item is a fault. -/
def Heard.isFault : Heard → Bool
  | .stream _ => false
  | .transfer _ => false
  | .fault => true
  | .profile _ => true
  | .duplicate => true

/-- STC uses the loopback of a LEAVE: a fault returns the leave phase to DRAINING at once (R150). -/
def State.leaveLoopback (s : State) (h : Heard) (sent : Option OwnItem) : State :=
  if h.isFault && decide (s.stc.station = .leaving) && decide (sent.map OwnItem.kind = some (.stream .leave)) then
    s.setStc { s.stc with leave := .draining }
  else s

/-- What the other blocks know of the item when it is the station's own. -/
def State.ownSent (s : State) : Option OwnItem :=
  if s.lif.item.own then s.lif.sent.map Frame.ownItem else none

/-- An item is recognised and delivered: LIF, TRK, CMU, XFU and STC take it in that order (R105; log 8). -/
def State.deliver (s : State) : State :=
  let h := s.heard
  let own := s.lif.item.own
  let sent := s.ownSent
  ((((((s.lifReport h).trackItem h own).itemTaken).cmuItem h own sent s.trk.rotation).xfuItem h own sent).leaveLoopback
    h sent)

/-! ### Starting a frame (R96, R109) -/

/-- LIF starts a frame: TXE, SENDING, and the station's own activity on the line (R96, R109; log 6). -/
def State.startFrame (s : State) (f : Frame) : State :=
  ((s.setLif { s.lif with
      receiver := .active, item := { LineItem.blank with own := true }, transmitter := .sending, sent := some f }).setTrk
    { s.trk.stopTimers with phase := .transmitting }).setPins { s.pins with lineActive := true }

/-- A stream frame of the station's own at the tracker's rotation, sealed with its frame check (R90, R109, R112). -/
def State.newFrame (s : State) (kind : StreamKind) (echo : Option FrameRef) (check : Option Word32) (wanted : Nat)
    (ops : List Request) (more : Bool) : StreamFrame :=
  StreamFrame.sealed s.profile
    { kind := kind, sender := s.number, rotation := s.trk.rotation, moreFollows := more, echo := echo,
      streamCheck := check, wanted := wanted, ops := ops, check := 0 }

/-- The identity of a stream frame the station sends now. -/
def State.nextId (s : State) : FrameId := ⟨s.trk.rotation, s.number⟩

/-- The plan of the turn's transfer frames, decided when the stream frame starts (R135). -/
def Xfu.newPlan (x : Xfu) : Option ServePlan :=
  match x.image with
  | none => none
  | some img => if x.joinerWanted < img.items.length then some ⟨img, x.joinerWanted, 0⟩ else none

/-- A frame sent as a replica, with the echo and stream check of R77 and more follows set when transfer frames follow. -/
def State.sendReplica (s : State) (kind : StreamKind) (ops : List Request) : State :=
  let plan := s.xfu.newPlan
  (s.setXfu { s.xfu with plan := plan }).startFrame
    (.stream (s.newFrame kind s.cmu.ownEcho (some s.cmu.ownCheck) 0 ops plan.isSome))

/-- A MEMBER frame; in MEMBER with the own mark none it takes up to 8 requests from the queue (R161). -/
def State.sendMember (s : State) : State :=
  if s.cmu.ownMark = none ∧ s.stc.station = .member then
    (s.setRqu (s.rqu.assemble s.nextId)).sendReplica .member (s.rqu.outgoing.take Config.maxOps)
  else s.sendReplica .member []

/-- In LEAVING: LEAVE when draining is done, a MEMBER frame without operations otherwise (R150). -/
def State.sendLeaving (s : State) : State :=
  if s.stc.leave = .draining ∧ s.rqu.inflight = [] then
    (s.setStc { s.stc with leave := .sent }).sendReplica .leave []
  else s.sendReplica .member []

/-- XFU at the start of a JOIN transmission (R120). -/
def Xfu.joinStarts (x : Xfu) (id : FrameId) : Xfu :=
  { x with phase := .awaiting, joinMark := some ⟨id, none⟩, stall := 0, catchup := [] }

/-- A JOIN, echoing last heard (R77, R120). -/
def State.sendJoin (s : State) : State :=
  (s.setXfu (s.xfu.joinStarts s.nextId)).startFrame (.stream (s.newFrame .join s.cmu.lastHeard none 0 [] false))

/-- A LOADING frame, with the wanted index and last heard (R77, R126). -/
def State.sendLoading (s : State) : State :=
  s.startFrame (.stream (s.newFrame .loading s.cmu.lastHeard none s.xfu.wanted [] false))

/-- The frame of the own turn, chosen by the station state when the transmission starts (R144). A state that sends
nothing leaves the phase waiting to start. -/
def State.startTurn (s : State) : State :=
  match s.stc.station with
  | .halted => s
  | .listening =>
    if s.trk.aligned then (s.enter .joining .joinSent none s.trk.rotation).sendJoin else s
  | .founding => s
  | .joining => if s.xfu.joinMark = none then s.sendJoin else s
  | .loading =>
    match s.xfu.phase with
    | .gathering => s.sendLoading
    | .replaying => s.sendLoading
    | .confirming => s.sendReplica .ready []
    | .awaiting => s
    | .idle => s
  | .member => s.sendMember
  | .leaving => s.sendLeaving
  | .detached => s

/-- The next transfer frame of a serving turn: up to four items, more follows clear in the last (R135, R136). -/
def State.sendTransfer (s : State) (p : ServePlan) : State :=
  let items := (p.image.items.drop p.next).take Config.itemsPerTransfer
  let last := decide (p.image.items.length ≤ p.next + items.length) || decide (Config.transfersPerTurn ≤ p.frames + 1)
  (s.setXfu { s.xfu with
      plan := if last then none else some { p with next := p.next + items.length, frames := p.frames + 1 } }).startFrame
    (.transfer (TransferFrame.sealed s.profile
      { sender := s.number, moreFollows := !last, joiner := p.image.joiner, snapRotation := p.image.rotation,
        donorRotation := s.trk.rotation, first := p.next, total := p.image.items.length, items := items, check := 0 }))

/-- The moment of a frame's start (R96). With the receiver not in QUIET, LIF yields and nothing is sent; what assembly
would have taken stays at the head of the queue (R109, R162). -/
def State.frameMoment (s : State) : State :=
  if s.lif.receiver = .quiet then
    match s.trk.phase with
    | .idle => s
    | .waiting => s.startTurn
    | .transmitting =>
      match s.xfu.plan with
      | none => s
      | some p => s.sendTransfer p
  else s

/-- The founding attempt at the expiry of the listen window: FOUNDING, and a FOUND at once (R99, R100, R145). -/
def State.beginFounding (s : State) : State :=
  (s.enter .founding .founding none s.trk.rotation).startFrame
    (.stream (StreamFrame.sealed s.profile
      { kind := .found, sender := s.number, rotation := 0, moreFollows := false, echo := none, streamCheck := none,
        wanted := 0, ops := [], check := 0 }))

/-- The last bit of the frame check has been sent; every bit heard was the bit sent (R109, R110). -/
def State.sentWhole (s : State) : State :=
  match s.lif.sent with
  | none => s.setLif { s.lif with transmitter := .idle }
  | some f =>
    s.setLif { s.lif with transmitter := .idle
                          item := s.lif.item.collect (bitsOfBytes (encodeFrame s.profile f)) }

end Sys2Proof.Machine
end

