-- ==== Sys2Proof/Machine/LineEvents.lean ====
section
/-! DEFINITION. The events of the group line and of the station's own frames: activity, delivery, the start and the end of
a transmission, and a loopback that disagrees. An event that cannot arise in a state changes nothing (log 3); while
RESET is low only the level of the line is followed (R155). -/

namespace Sys2Proof.Machine

/-- ACTIVITY_BEGINS (R88, R104). -/
def execActivityBegins (s : State) : Host.Outcome State Fault Refusal :=
  .next (if s.pins.resetLow then s.setPins { s.pins with lineActive := true } else s.activityStarts)

/-- ACTIVITY_STOPS (R104). -/
def execActivityStops (bits : List Bool) (s : State) : Host.Outcome State Fault Refusal :=
  .next (if s.pins.resetLow then s.setPins { s.pins with lineActive := false } else s.activityEnds bits)

/-- ITEM_DELIVERY (R105): sixteen bit times of quiet in TRAILING. -/
def execItemDelivery (s : State) : Host.Outcome State Fault Refusal :=
  .next (s.unlessHeld (if s.lif.receiver = .trailing then s.deliver else s))

/-- FRAME_START (R96). While the transmitter is SENDING no frame starts. -/
def execFrameStart (s : State) : Host.Outcome State Fault Refusal :=
  .next (s.unlessHeld (if s.lif.transmitter = .sending then s else s.frameMoment))

/-- TRANSMISSION_END (R109). -/
def execTransmissionEnd (s : State) : Host.Outcome State Fault Refusal :=
  .next (s.unlessHeld (if s.lif.transmitter = .sending then s.sentWhole else s))

/-- LOOPBACK_MISMATCH (R110): the transmitter stops, and the item will be delivered as an own fault. -/
def execLoopbackMismatch (s : State) : Host.Outcome State Fault Refusal :=
  .next (s.unlessHeld (if s.lif.transmitter = .sending then
      s.setLif { s.lif with transmitter := .idle, item := { s.lif.item with mismatch := true } }
    else s))

end Sys2Proof.Machine
end

