-- ==== Sys2Proof/Machine/PinEvents.lean ====
section
/-! DEFINITION. The RESET pin (R141, R155). -/

namespace Sys2Proof.Machine

/-- RESET is low with a level on SN3-SN0: every block as a pin reset leaves it, the strap number sampled (R155). -/
def State.pinResetLow (s : State) (sn : BitVec 4) : State :=
  ((((s.resetBlocks.setStc { station := .halted, leave := .idle, config := ConfigCopy.default, strap := sn }).setLpt
    Lpt.cleared)).setPins { s.cutTransmission.pins with resetLow := true })

/-- PIN_RESET (R155). -/
def execPinReset (sn : BitVec 4) (s : State) : Host.Outcome State Fault Refusal := .next (s.pinResetLow sn)

/-- RESET_RELEASE (R155): the held reset ends; the strap number stays as sampled (R141). -/
def execResetRelease (s : State) : Host.Outcome State Fault Refusal :=
  .next (s.setPins { s.pins with resetLow := false })

end Sys2Proof.Machine
end

