-- ==== Sys2Proof/Machine/Registers.lean ====
section
/-! DEFINITION. The bus cycles on registers other than the commands: the read of ROTHI (R181), and the writes of CONFIG,
IRQEN and the words without behaviour of their own (R180, R182, R183). -/

namespace Sys2Proof.Machine

/-- A read of ROTHI: the upper half is driven on the bus, the lower half goes to the latch (R181). -/
def State.readRotHi (s : State) : State :=
  s.setLpt { s.lpt with readData := some (upper s.trk.rotation), latch := lower s.trk.rotation }

/-- A write of CONFIG: taken in HALTED, ignored elsewhere (R182). -/
def State.writeConfig (s : State) (w : Word16) : State :=
  if s.stc.station = .halted then
    (s.setStc { s.stc with config := configOf w }).setLpt { s.lpt with writeIgnored := false }
  else s.setLpt { s.lpt with writeIgnored := true }

/-- A write of IRQEN: bit 0 queue non-empty, bit 1 overflow (R182). -/
def State.writeIrqEn (s : State) (w : Word16) : State :=
  s.setLpt { s.lpt with irqNonEmpty := w.getLsbD 0, irqOverflow := w.getLsbD 1 }

/-- A write of a word without behaviour of its own; read-only and unused addresses take nothing (R180, R183). DESIGN
CHOICE, log 30: the staging words keep all 16 bits written, bits 3, 6 and 7 of STAGE0 among them. -/
def Lpt.store (p : Lpt) (a : Nat) (w : Word16) : Lpt :=
  if a = 0x08 then { p with stage0 := w }
  else if a = 0x09 then { p with stage1 := w }
  else if a = 0x0A then { p with stage2 := w }
  else if a = 0x0B then { p with stage3 := w }
  else if a = 0x13 then { p with inqKey := w }
  else p

/-- A write cycle at any address (R180, register map): CONFIG, IRQEN and CMD have behaviour of their own. -/
def State.busWrite (s : State) (a : BitVec 5) (w : Word16) : State :=
  if a.toNat = 0x00 then s.writeConfig w
  else if a.toNat = 0x01 then s.writeIrqEn w
  else if a.toNat = 0x06 then s.hostCommand w
  else s.setLpt (s.lpt.store a.toNat w)

/-- ROTHI_READ (R181). -/
def execRothiRead (s : State) : Host.Outcome State Fault Refusal := .next (s.unlessHeld s.readRotHi)

/-- CONFIG_WRITE (R182). -/
def execConfigWrite (data : Word16) (s : State) : Host.Outcome State Fault Refusal :=
  .next (s.unlessHeld (s.writeConfig data))

/-- IRQEN_WRITE (R182). -/
def execIrqenWrite (data : Word16) (s : State) : Host.Outcome State Fault Refusal :=
  .next (s.unlessHeld (s.writeIrqEn data))

/-- REGISTER_WRITE (R180, R183). An address with a row of its own is not well formed here; the bus then does what that
register's write does (log 21). -/
def execRegisterWrite (addr : BitVec 5) (data : Word16) (s : State) : Host.Outcome State Fault Refusal :=
  .next (s.unlessHeld (s.busWrite addr data))

end Sys2Proof.Machine
end

