-- ==== Sys2Proof/Machine/TimerEvents.lean ====
section
/-! DEFINITION. The moments that the station's own timing and counts reach: the skip point, the expiry of the listen
window, the loss of alignment, the stall of a join, and the next entry of a replay. An event that cannot arise in a state
changes nothing (log 3), and none arises while RESET is low (R155). -/

namespace Sys2Proof.Machine

/-- The turn passes at a skip point, which becomes the reference point with the skip timer at 0 (R92). -/
def State.skipTurn (s : State) : State :=
  s.passTurn.setTrk { s.passTurn.trk with reference := some s.clock, skipTimer := some 0 }

/-- SKIP_POINT (R92): it arises while the tracker follows turns and the skip timer runs. -/
def execSkipPoint (s : State) : Host.Outcome State Fault Refusal :=
  .next (s.unlessHeld (if s.followsTurns && s.trk.skipTimer.isSome then s.skipTurn else s))

/-- LISTEN_WINDOW_EXPIRY (R99): it arises in LISTENING with the flag clear, the window running and the line quiet. -/
def execListenWindowExpiry (s : State) : Host.Outcome State Fault Refusal :=
  .next (s.unlessHeld (if s.stc.station = .listening ∧ s.trk.aligned = false ∧ s.trk.window.isSome
      ∧ s.lif.receiver = .quiet then s.beginFounding
    else s))

/-- R98 clears the flag in every state but MEMBER and LEAVING; in HALTED the tracker takes nothing. -/
def StationState.losesAlignment : StationState → Bool
  | .halted => false
  | .listening => true
  | .founding => true
  | .joining => true
  | .loading => true
  | .member => false
  | .leaving => false
  | .detached => true

/-- The aligned flag is cleared; in LISTENING the listen window starts (R98, R99). -/
def State.loseAlignment (s : State) : State :=
  let t := { s.trk with aligned := false }
  if s.stc.station = .listening then s.setTrk (t.startWindow 0) else s.setTrk t

/-- ALIGNMENT_LOSS (R98): the rule clears the flag when the lone-turn count reaches 2N. DESIGN CHOICE, log 32: it arises
whenever the flag is set and the count stands at 2N, also when it reached 2N in MEMBER or LEAVING, and when the station's own
frame has set the flag since. -/
def execAlignmentLoss (s : State) : Host.Outcome State Fault Refusal :=
  .next (s.unlessHeld (if s.stc.station.losesAlignment && s.trk.aligned && decide (2 * s.groupSize ≤ s.trk.lone) then
      s.loseAlignment
    else s))

/-- JOIN_STALL (R122): it arises in AWAITING or GATHERING when the stall count stands at 3. -/
def execJoinStall (s : State) : Host.Outcome State Fault Refusal :=
  .next (s.unlessHeld (if (s.xfu.phase = .awaiting ∨ s.xfu.phase = .gathering) ∧ Config.stallLimit ≤ s.xfu.stall then
      s.joinFail .stall s.trk.rotation
    else s))

/-- REPLAY_ENTRY (R128): it arises in LOADING during replay. -/
def execReplayEntry (s : State) : Host.Outcome State Fault Refusal :=
  .next (s.unlessHeld (if s.stc.station = .loading ∧ s.xfu.phase = .replaying then s.replayNext else s))

end Sys2Proof.Machine
end

