-- ==== Sys2Proof/Machine/Dispatch.lean ====
section
/-! DEFINITION. One arm per command of the table. -/

namespace Sys2Proof.Machine

def exec (i : Instr) (s : State) : Host.Outcome State Fault Refusal :=
  match i with
  | .enable => Sys2Proof.Machine.execEnable s
  | .leave => Sys2Proof.Machine.execLeave s
  | .disable => Sys2Proof.Machine.execDisable s
  | .portReset => Sys2Proof.Machine.execPortReset s
  | .post => Sys2Proof.Machine.execPost s
  | .cancel => Sys2Proof.Machine.execCancel s
  | .pop => Sys2Proof.Machine.execPop s
  | .clearLost => Sys2Proof.Machine.execClearLost s
  | .inquire => Sys2Proof.Machine.execInquire s
  | .badCmd code => Sys2Proof.Machine.execBadCmd code s
  | .rothiRead => Sys2Proof.Machine.execRothiRead s
  | .configWrite data => Sys2Proof.Machine.execConfigWrite data s
  | .irqenWrite data => Sys2Proof.Machine.execIrqenWrite data s
  | .registerWrite addr data => Sys2Proof.Machine.execRegisterWrite addr data s
  | .pinReset sn => Sys2Proof.Machine.execPinReset sn s
  | .activityBegins => Sys2Proof.Machine.execActivityBegins s
  | .itemDelivery => Sys2Proof.Machine.execItemDelivery s
  | .skipPoint => Sys2Proof.Machine.execSkipPoint s
  | .listenWindowExpiry => Sys2Proof.Machine.execListenWindowExpiry s
  | .frameStart => Sys2Proof.Machine.execFrameStart s
  | .transmissionEnd => Sys2Proof.Machine.execTransmissionEnd s
  | .loopbackMismatch => Sys2Proof.Machine.execLoopbackMismatch s
  | .alignmentLoss => Sys2Proof.Machine.execAlignmentLoss s
  | .joinStall => Sys2Proof.Machine.execJoinStall s
  | .replayEntry => Sys2Proof.Machine.execReplayEntry s
  | .activityStops bits => Sys2Proof.Machine.execActivityStops bits s
  | .resetRelease => Sys2Proof.Machine.execResetRelease s

end Sys2Proof.Machine
end

