-- ==== Sys2Proof/Machine/Bus.lean ====
section
/-! DEFINITION. The bus cycle (R180): what the strobes make of it, the command of the table that it is, and the word it
drives on D15-D0. A cycle is whole: its length and the order of its edges are left out (log 23). -/

namespace Sys2Proof.Machine

/-- A cycle of the local port: whether CS, RD and WR were low in it, and what stood on A4-A0 and D15-D0. -/
structure BusCycle where
  cs : Bool
  rd : Bool
  wr : Bool
  addr : BitVec 5
  data : Word16
deriving DecidableEq, Repr

/-- A read cycle: CS and RD low. With RD and WR both low a cycle is ignored (R180). -/
def BusCycle.isRead (c : BusCycle) : Bool := c.cs && c.rd && !c.wr

/-- A write cycle: CS and WR low. With RD and WR both low a cycle is ignored (R180). -/
def BusCycle.isWrite (c : BusCycle) : Bool := c.cs && c.wr && !c.rd

/-- The command that a code written to CMD is (R183). -/
def commandOfCode (code : Word16) : Instr :=
  if code = 1 then .enable
  else if code = 2 then .leave
  else if code = 3 then .disable
  else if code = 4 then .portReset
  else if code = 5 then .post
  else if code = 6 then .cancel
  else if code = 7 then .pop
  else if code = 8 then .clearLost
  else if code = 9 then .inquire
  else .badCmd code

/-- The command that a write cycle is: CONFIG, IRQEN and CMD have rows of their own (R182, R183). -/
def writeCommand (a : BitVec 5) (w : Word16) : Instr :=
  if a = 0x00 then .configWrite w
  else if a = 0x01 then .irqenWrite w
  else if a = 0x06 then commandOfCode w
  else .registerWrite a w

/-- The command that a cycle is; none when it changes no state: a read other than ROTHI's, and no cycle at all (R180). -/
def BusCycle.command (c : BusCycle) : Option Instr :=
  if c.isWrite then some (writeCommand c.addr c.data)
  else if c.isRead && c.addr == 0x04 then some .rothiRead
  else none

/-- What the station drives on D15-D0 in a cycle: the word read, and nothing in any other cycle or while RESET is low
(R180). -/
def State.drives (s : State) (c : BusCycle) : Option Word16 :=
  if c.isRead && !s.pins.resetLow then some (s.readWord c.addr) else none

/-- The host makes a cycle: its command, when it is one, waits its turn. -/
def State.hostCycle (s : State) (c : BusCycle) : State :=
  match c.command with
  | none => s
  | some i => s.setPending (s.pending ++ [i])

end Sys2Proof.Machine
end

