-- ==== Sys2Proof/Safety.lean ====
section
/-! DEFINITION. What a safe run is, in the terms that claims use: the resource table in the form of R1 to R11
(`TableSound`, and without R11 `TableFormed`), the Request Unit's places (`RequestsSound`), the bounds of every block and
its ties with the station state (`StationSound`), the staged request of a POST, the frames a station starts, and what the
delivery of an item leaves in LIF, TRK, CMU and XFU. -/

namespace Sys2Proof.Machine

/-! ### The resource table -/

/-- Records stand in strictly ascending resource number, none of them 0 (R1). -/
def recordsOrdered (l : List ResRecord) : Prop := l.Pairwise (fun a b => a.resource < b.resource) ∧ ∀ r ∈ l, r.resource ≠ 0

/-- An EXCLUSIVE holder is the only holder of its record (R2). -/
def exclusiveAlone (r : ResRecord) : Prop := ∀ c ∈ r.holders, c.mode = .exclusive → r.holders.length = 1

/-- The head waiter of a record is not compatible with its holders (R11). -/
def headWaits (r : ResRecord) : Prop := ∀ w ws, r.waiters = w :: ws → compatible w.mode r.holders = false

/-- Every station has at most one claim in a record (R4). -/
def oneClaimEach (r : ResRecord) : Prop := (r.claims.map (·.station)).Nodup

/-- A record of an observable table (R1, R2, R4, R11). -/
def RecordSound (r : ResRecord) : Prop := r.holders ≠ [] ∧ exclusiveAlone r ∧ headWaits r ∧ oneClaimEach r

/-- The counts agree with the claims (R1, R6, R7), and none is over its limit. -/
def CountsSound (t : Tbu) : Prop :=
  t.inUse = t.records.length ∧ t.records.length ≤ Config.recordSlots
    ∧ t.free + t.claims.length = Config.claimPool
    ∧ (∀ k < 16, t.count k = t.claims.countP (fun c => c.station == k))
    ∧ (∀ k < 16, t.count k ≤ Config.quota)
    ∧ (∀ c ∈ t.claims, c.station < 16)

/-- An observable table (R1 to R7, R11, R14). -/
def TableSound (t : Tbu) : Prop := recordsOrdered t.records ∧ (∀ r ∈ t.records, RecordSound r) ∧ CountsSound t

/-- What R1 to R7 say of an observable table, R11's head waiters apart. -/
def TableFormed (t : Tbu) : Prop :=
  recordsOrdered t.records ∧ (∀ r ∈ t.records, r.holders ≠ [] ∧ exclusiveAlone r ∧ oneClaimEach r) ∧ CountsSound t

/-- At most one roster entry is JOINING (R48). -/
def OneJoiner (t : Tbu) : Prop :=
  ∀ j k, (t.entry j).isJoining = true → (t.entry k).isJoining = true → j = k

/-- The items of a complete map form one image (R125): the records in strictly ascending resource number, each with a
holder, an EXCLUSIVE holder alone, at most 128 claims and 32 of any station, and at most one entry JOINING. -/
def ImageForm (ros : RosterItem) (recs : List ResRecord) : Prop :=
  recs.Pairwise (fun a b => a.resource < b.resource) ∧ (∀ r ∈ recs, r.holders ≠ [] ∧ exclusiveAlone r)
    ∧ (recs.flatMap ResRecord.claims).length ≤ 128
    ∧ (∀ k < 16, (recs.flatMap ResRecord.claims).countP (fun c => c.station == k) ≤ 32)
    ∧ ros.entries.countP RosterEntry.isJoining ≤ 1

/-- The claims of a station in a record, in walk order (R13). -/
def ResRecord.claimsOf (r : ResRecord) (k : Nat) : List Claim := r.claims.filter (fun c => c.station == k)

/-- LOST for each claim of a station, in walk order, with a rotation (R13, R51). -/
def lostOutcomes (k : Nat) (rotation : Word32) (l : List ResRecord) : List Outcome :=
  l.flatMap (fun x => (x.claimsOf k).map (fun c =>
    ⟨k, { kind := .lost, tag := some c.tag, resource := some x.resource, mode := some c.mode, rotation := rotation,
          detail := .absent }⟩))

/-- From `a` to `b` every claim of the stations `ks` leaves the table, the others keeping their order; LOST is produced for
the claims of each of `ks` in turn, in walk order; the records they leave are touched; each returns to the pool and lowers
its station's count; the entries of `ks` become NONE (R9, R13, R51, R57). -/
def TakesOut (a : App) (ks : List Nat) (rotation : Word32) (b : App) : Prop :=
  b.tbu.records = a.tbu.records.map (fun x => { x with
      holders := x.holders.filter (fun c => !ks.contains c.station)
      waiters := x.waiters.filter (fun c => !ks.contains c.station) })
    ∧ b.out = a.out ++ ks.flatMap (fun k => lostOutcomes k rotation a.tbu.records)
    ∧ (∀ x, x ∈ b.touched ↔ x ∈ a.touched ∨ ∃ r ∈ a.tbu.records, r.resource = x ∧ ∃ c ∈ r.claims, c.station ∈ ks)
    ∧ b.tbu.free = a.tbu.free + a.tbu.claims.countP (fun c => ks.contains c.station)
    ∧ (∀ k, b.tbu.count k = if k ∈ ks then a.tbu.count k - a.tbu.claims.countP (fun c => c.station == k) else a.tbu.count k)
    ∧ (∀ k, b.tbu.entry k = if k ∈ ks then .vacant else a.tbu.entry k)
    ∧ b.tbu.inUse = a.tbu.inUse ∧ b.tbu.lastApplied = a.tbu.lastApplied

/-! ### The other blocks, each alone -/

/-- Every live request is in exactly one place: the live tags are those of the in-flight list and then the queue, no tag
twice, and at most 32 requests are live (R156, R159, R160). -/
def RequestsSound (u : Rqu) : Prop :=
  u.live = (u.inflight ++ u.outgoing).map (·.tag) ∧ u.live.Nodup ∧ u.live.length ≤ Config.requestPlaces

/-- The notification queue holds at most 64 records, the lost count is at most 65535, and a count other than 0 shows in
the overflow flag (R171, R176). -/
def QueueSound (q : Ntq) : Prop :=
  q.queue.length ≤ Config.queuePlaces ∧ q.lost ≤ Config.countLimit ∧ (q.lost ≠ 0 → q.overflow = true)

/-- The tracker's counts and timers within R87, in a group of `n`. -/
def TrackerSound (t : Trk) (n : Nat) : Prop := t.lone ≤ 2 * n ∧ (∀ k, t.skipTimer = some k → k ≤ Config.skipQuiet)

/-- The Commit Unit's counts within R66; the discordant sender is kept exactly while a discordant frame is counted. -/
def CommitSound (c : Cmu) : Prop :=
  c.holes ≤ Config.countLimit ∧ c.discordance ≤ 1 ∧ (c.discordance = 0 ↔ c.discordSender = none)

/-- The joiner's stall count and catch-up queue within R119. -/
def TransferSound (x : Xfu) : Prop := x.stall ≤ Config.stallLimit ∧ x.catchup.length ≤ Config.catchupPlaces

/-- The leave phase is NONE in every state but LEAVING (R140). -/
def LeaveSound (c : Stc) : Prop := c.station ≠ .leaving → c.leave = .idle

/-- The stored item within 641 bytes (R104). -/
def ItemSound (l : Lif) : Prop := l.item.bits.length ≤ 8 * Config.longestItem

/-! ### The blocks together -/

/-- In JOINING the attempt awaits the fate of its JOIN, in LOADING it gathers, replays or confirms, and in no other
state is there an attempt (R119, R123, R132, R147). -/
def PhaseAgrees (s : State) : Prop :=
  (s.stc.station = .joining ↔ s.xfu.phase = .awaiting)
    ∧ (s.stc.station = .loading ↔ (s.xfu.phase = .gathering ∨ s.xfu.phase = .replaying ∨ s.xfu.phase = .confirming))

/-- A station whose CMU is not a replica holds no committed history: stream state, table, roster and last applied
boundary are cleared (R17, R49, R86). -/
def HistoryAgrees (s : State) : Prop :=
  s.isReplica = false → s.cmu = s.cmu.clearStream ∧ s.tbu = Tbu.cleared

/-- XFU's donor side is cleared outside MEMBER and LEAVING (R119, R139). -/
def DonorAgrees (s : State) : Prop :=
  s.stc.station ≠ .member → s.stc.station ≠ .leaving →
    s.xfu.image = none ∧ s.xfu.joinerWanted = 0 ∧ s.xfu.plan = none

/-- A joiner that has loaded its image finds its own roster entry JOINING (R127, R130). -/
def EntryAgrees (s : State) : Prop :=
  s.stc.station = .loading → s.xfu.phase = .replaying ∨ s.xfu.phase = .confirming →
    (s.tbu.entry s.number).isJoining = true

/-- In HALTED, and only there, the receiver is OFF; the transmitter is then IDLE and the tracker cleared (R102, R104,
R118). -/
def HaltedAgrees (s : State) : Prop :=
  (s.stc.station = .halted ↔ s.lif.receiver = .off)
    ∧ (s.stc.station = .halted → s.lif.transmitter = .idle ∧ s.trk = Trk.cleared)

/-- A catch-up entry is not a FOUND of the station's own or of another (R124). -/
def CatchEntry.noFound : CatchEntry → Prop
  | .frame g _ => g.kind ≠ .found
  | .hole none => True
  | .hole (some o) => o.kind ≠ .stream .found

/-- A FOUND of the station's own is on its way only in FOUNDING, and pending only in MEMBER and LEAVING (R83, R145). -/
def FoundAgrees (s : State) : Prop :=
  (∀ f, s.lif.sent = some (.stream f) → f.kind = .found → s.stc.station = .founding)
    ∧ (∀ m, s.cmu.ownMark = some m → m.kind = .stream .found → s.stc.station = .member ∨ s.stc.station = .leaving)
    ∧ (∀ e ∈ s.xfu.catchup, e.noFound)

/-- Without a join attempt the joiner side is cleared (R119, R139). -/
def JoinerAgrees (s : State) : Prop := s.xfu.phase = .idle → s.xfu.clearJoiner = s.xfu

/-- Outside HALTED the configuration and the strap number are in range (R143, R182). -/
def ConfigAgrees (s : State) : Prop :=
  s.stc.station ≠ .halted →
    (2 ≤ s.groupSize ∧ s.groupSize ≤ 16) ∧ (1 ≤ s.absenceLimit ∧ s.absenceLimit ≤ 4) ∧ s.number < s.groupSize

/-- What the station keeps of the frames it heard passed the checks of R106: P, the catch-up queue, the assembly map. -/
def FramesInRange (s : State) : Prop :=
  (∀ p, s.cmu.waiting = some p → p.wf s.groupSize = true)
    ∧ (∀ g own, .frame g own ∈ s.xfu.catchup → g.wf s.groupSize = true)
    ∧ (∀ i it, s.xfu.slot i = some it → it.wf s.groupSize i = true)

/-- No head waiter is grantable (R11), in the table and in the records of the assembly map. -/
def HeadsWait (s : State) : Prop :=
  (∀ r ∈ s.tbu.records, headWaits r) ∧ (∀ i r, s.xfu.slot i = some (.record r) → headWaits r)

/-- What holds of every station that a run reaches: the bounds of each block, and the ties between the blocks. -/
structure StationSound (s : State) : Prop where
  queue : QueueSound s.ntq
  tracker : TrackerSound s.trk s.groupSize
  commit : CommitSound s.cmu
  transfer : TransferSound s.xfu
  leave : LeaveSound s.stc
  item : ItemSound s.lif
  phase : PhaseAgrees s
  history : HistoryAgrees s
  donor : DonorAgrees s
  entry : EntryAgrees s
  halted : HaltedAgrees s
  found : FoundAgrees s
  joiner : JoinerAgrees s
  config : ConfigAgrees s
  frames : FramesInRange s
  table : TableFormed s.tbu
  roster : OneJoiner s.tbu

/-! ### The staged request of a POST (R158, R184) -/

/-- The op kind field of STAGE0. -/
def stagedOp (p : Lpt) : Nat := (p.stage0.extractLsb' 0 3).toNat

/-- The mode field of STAGE0. -/
def stagedMode (p : Lpt) : Nat := (p.stage0.extractLsb' 4 2).toNat

/-- The staging words hold a well-formed request: none of the five refusals of R184 applies. -/
def StagedWellFormed (p : Lpt) : Prop :=
  (1 ≤ stagedOp p ∧ stagedOp p ≤ 5) ∧ p.stage1 ≠ 0
    ∧ (stagedOp p = 1 → stagedMode p = 1 ∨ stagedMode p = 2)
    ∧ (stagedOp p = 1 ∨ stagedOp p = 3 → p.stage2.toNat ≤ 4095)
    ∧ (stagedOp p = 1 → p.stage3.toNat ≤ 4095)

/-- The request record that RQU makes of well-formed staging words, each ignored field 0 (R21, R158). -/
def stagedRecord (p : Lpt) : Request :=
  { kind := if stagedOp p = 1 then .acquire else if stagedOp p = 2 then .release else if stagedOp p = 3 then .renew
      else if stagedOp p = 4 then .withdraw else .downgrade
    mode := if stagedOp p = 1 then some (if stagedMode p = 1 then .shared else .exclusive) else none
    tag := p.stage0.extractLsb' 8 8
    resource := p.stage1
    lease := if stagedOp p = 1 ∨ stagedOp p = 3 then p.stage2 else 0
    patience := if stagedOp p = 1 then p.stage3 else 0 }

/-! ### Items heard (R106) -/

/-- The bytes of an item pass checks 1 to 3 of R106: at least 29 of them, the sync pattern, the frame check over the bytes
between. -/
def CarriesCheck (bytes : List Byte) : Prop :=
  29 ≤ bytes.length ∧ bytes.take 2 = [0xD3, 0x91]
    ∧ bytes.drop (bytes.length - 4) = bytes32 (crc ((bytes.drop 2).take (bytes.length - 6)))

/-- The code of a frame's kind (spec/11, Codes). -/
def kindCode : Frame → Byte
  | .stream f => match f.kind with
    | .found => 1
    | .member => 2
    | .join => 3
    | .loading => 4
    | .ready => 5
    | .leave => 6
  | .transfer _ => 7

/-- A field's bytes stand in a byte string from index `i` on. -/
def StandsAt (l : List Byte) (i : Nat) (field : List Byte) : Prop := ∀ k b, field[k]? = some b → l.getD (i + k) 0 = b

/-- The operation entry at index `i` holds a request: no spare bit, op kind, tag and resource, and what its op kind uses of
mode, lease and patience (R21, R113; spec/11, operation entry). -/
def EntryAt (l : List Byte) (i : Nat) (q : Request) : Prop :=
  ((l.getD i 0).getLsbD 3 = false ∧ (l.getD i 0).getLsbD 6 = false ∧ (l.getD i 0).getLsbD 7 = false)
    ∧ (l.getD i 0).toNat % 8 = (match q.kind with
        | .acquire => 1 | .release => 2 | .renew => 3 | .withdraw => 4 | .downgrade => 5)
    ∧ (∀ m, q.mode = some m → (l.getD i 0).toNat / 16 % 4 = (match m with | .shared => 1 | .exclusive => 2))
    ∧ l.getD (i + 1) 0 = q.tag ∧ StandsAt l (i + 2) (bytes16 q.resource)
    ∧ (q.kind = .acquire ∨ q.kind = .renew → StandsAt l (i + 4) (bytes16 q.lease))
    ∧ (q.kind = .acquire → StandsAt l (i + 6) (bytes16 q.patience))

/-- The roster entry at index `i` holds a state, and what is meaningful in it (R48, R116; spec/11, roster item). -/
def RosterEntryAt (l : List Byte) (i : Nat) : RosterEntry → Prop
  | .vacant => l.getD i 0 = 0
  | .joining start donor => l.getD i 0 = 1 ∧ StandsAt l (i + 5) (bytes32 start) ∧ (l.getD (i + 9) 0).toNat = donor
  | .member seen => l.getD i 0 = 2 ∧ StandsAt l (i + 1) (bytes32 seen)

/-- The claim at index `i` holds a state and a claim; its expiry is read unless it is none (R116; spec/11, record item). -/
def ClaimAt (l : List Byte) (i : Nat) (st : ClaimState) (c : Claim) : Prop :=
  (l.getD i 0).toNat = c.station
    ∧ (l.getD (i + 1) 0).toNat % 4 = (match st with | .holding => 1 | .waiting => 2)
    ∧ (l.getD (i + 1) 0).toNat / 4 % 4 = (match c.mode with | .shared => 1 | .exclusive => 2)
    ∧ (l.getD (i + 1) 0).getLsbD 4 = c.expiry.isNone
    ∧ l.getD (i + 2) 0 = c.tag ∧ StandsAt l (i + 3) (bytes16 c.lease)
    ∧ (∀ e, c.expiry = some e → StandsAt l (i + 5) (bytes32 e))

/-- The length of a snapshot item (R115; spec/11, roster and record item). -/
def itemLength : SnapItem → Nat
  | .roster r => 18 + 10 * r.entries.length
  | .record r => 3 + 9 * (r.holders.length + r.waiters.length)

/-- The snapshot item at index `i` (R116): a roster item with its entries in station order, or a record item with its
claims, the holders first. -/
def ItemAt (l : List Byte) (i : Nat) : SnapItem → Prop
  | .roster r => (l.getD i 0).toNat = r.entries.length ∧ StandsAt l (i + 1) (bytes32 r.lastApplied)
      ∧ StandsAt l (i + 5) (bytes32 r.streamCheck) ∧ StandsAt l (i + 9) (bytes32 r.last.id.rotation)
      ∧ (l.getD (i + 13) 0).toNat = r.last.id.sender ∧ StandsAt l (i + 14) (bytes32 r.last.check)
      ∧ (∀ k e, r.entries[k]? = some e → RosterEntryAt l (i + 18 + 10 * k) e)
  | .record r => StandsAt l i (bytes16 r.resource) ∧ (l.getD (i + 2) 0).toNat = r.holders.length + r.waiters.length
      ∧ (∀ k c, r.holders[k]? = some c → ClaimAt l (i + 3 + 9 * k) .holding c)
      ∧ (∀ k c, r.waiters[k]? = some c → ClaimAt l (i + 3 + 9 * (r.holders.length + k)) .waiting c)

/-- The snapshot items from index `i` on, one behind another with nothing between them (R115). -/
def ItemsAt (l : List Byte) : Nat → List SnapItem → Prop
  | _, [] => True
  | i, it :: rest => ItemAt l i it ∧ ItemsAt l (i + itemLength it) rest

/-- A frame is what an item's bytes carry, in every field that is read (R112 to R117; spec/11, headers): kind, flags, sender,
the fields of its header, its operation entries or snapshot items, the length that these declare, and the frame check. -/
def CarriedBy (bytes : List Byte) : Frame → Prop
  | .stream f => bytes.getD 3 0 = kindCode (.stream f)
      ∧ bytes.getD 4 0 = byteOf (bitValue f.moreFollows + 2 * bitValue f.echo.isSome + 4 * bitValue f.streamCheck.isSome)
      ∧ (bytes.getD 5 0).toNat = f.sender ∧ StandsAt bytes 6 (bytes32 f.rotation)
      ∧ (∀ e, f.echo = some e → StandsAt bytes 10 (bytes32 e.id.rotation) ∧ (bytes.getD 14 0).toNat = e.id.sender
        ∧ StandsAt bytes 15 (bytes32 e.check))
      ∧ (∀ v, f.streamCheck = some v → StandsAt bytes 19 (bytes32 v))
      ∧ (f.kind = .loading → (bytes.getD 23 0).toNat = f.wanted) ∧ (bytes.getD 24 0).toNat = f.ops.length
      ∧ (∀ k q, f.ops[k]? = some q → EntryAt bytes (25 + 8 * k) q)
      ∧ bytes.length = 25 + 8 * f.ops.length + 4 ∧ StandsAt bytes (bytes.length - 4) (bytes32 f.check)
  | .transfer t => bytes.getD 3 0 = 7 ∧ bytes.getD 4 0 = byteOf (bitValue t.moreFollows)
      ∧ (bytes.getD 5 0).toNat = t.sender ∧ (bytes.getD 6 0).toNat = t.joiner
      ∧ StandsAt bytes 7 (bytes32 t.snapRotation) ∧ StandsAt bytes 11 (bytes32 t.donorRotation)
      ∧ (bytes.getD 15 0).toNat = t.first ∧ (bytes.getD 16 0).toNat = t.items.length ∧ (bytes.getD 17 0).toNat = t.total
      ∧ ItemsAt bytes 18 t.items
      ∧ bytes.length = 18 + (t.items.map itemLength).sum + 4 ∧ StandsAt bytes (bytes.length - 4) (bytes32 t.check)

/-! ### Frames a station starts -/

/-- The host takes no part: RESET is released, and the station may start the frame of its own turn: the phase is waiting
to start, the transmitter IDLE and the line QUIET (R96, R109). -/
def OwnTurnStarts (s : State) : Prop :=
  s.pins.resetLow = false ∧ s.lif.transmitter = .idle ∧ s.lif.receiver = .quiet ∧ s.trk.phase = .waiting

/-- LIF after it has started a frame: an item of its own under way, SENDING, the frame in hand (R104, R109). -/
def startedLif (l : Lif) (f : Frame) : Lif :=
  { l with
    receiver := .active
    item := { bits := [], tooLong := false, missedStart := false, own := true, mismatch := false, endAt := none }
    transmitter := .sending
    sent := some f }

/-- The tracker after a start: phase transmitting, the timers stopped by the station's own activity (R88, R96). -/
def startedTrk (t : Trk) : Trk := { t with skipTimer := none, window := none, phase := .transmitting }

/-- The echo of a frame sent as a replica: P, or L when there is no P (R77). -/
def replicaEcho (c : Cmu) : Option FrameRef :=
  match c.waiting with
  | some p => some ⟨⟨p.rotation, p.sender⟩, p.check⟩
  | none => c.last

/-- The stream check of a frame sent as a replica: the C that its echo results in (R76, R77). -/
def replicaCheck (c : Cmu) : Word32 :=
  match c.waiting with
  | some p => crc (bytes32 c.check ++ bytes32 p.check)
  | none => c.check

/-- The plan with which a donor begins its turn: none unless it holds an image of which the joiner still wants an item
(R135). -/
def donorPlan (x : Xfu) : Option ServePlan :=
  match x.image with
  | some img => if x.joinerWanted < img.items.length then some ⟨img, x.joinerWanted, 0⟩ else none
  | none => none

/-- The stream frame of kind `k` with operations `ops` that a replica sends now (R77, R90, R112, R114). -/
def replicaFrame (s : State) (k : StreamKind) (ops : List Request) : StreamFrame :=
  StreamFrame.sealed s.profile
    { kind := k, sender := s.number, rotation := s.trk.rotation, moreFollows := (donorPlan s.xfu).isSome,
      echo := replicaEcho s.cmu, streamCheck := some (replicaCheck s.cmu), wanted := 0, ops := ops, check := 0 }

/-- The frame of kind JOIN or LOADING that a station sends now: last heard as its echo, no stream check (R77, R114). -/
def joinerFrame (s : State) (k : StreamKind) (wanted : Nat) : StreamFrame :=
  StreamFrame.sealed s.profile
    { kind := k, sender := s.number, rotation := s.trk.rotation, moreFollows := false, echo := s.cmu.lastHeard,
      streamCheck := none, wanted := wanted, ops := [], check := 0 }

/-! ### Items delivered -/

/-- An item that is no frame of the station's own is due for delivery: RESET is released and the receiver TRAILING, and
LIF classifies the item as `h` (R104, R105). -/
def Delivers (s : State) (h : Heard) : Prop :=
  s.pins.resetLow = false ∧ s.lif.receiver = .trailing ∧ s.lif.item.own = false ∧ s.heard = h

/-- A frame of the station's own is due for delivery, classified as `h` (R105, R110). -/
def DeliversOwn (s : State) (sent : Frame) (h : Heard) : Prop :=
  s.pins.resetLow = false ∧ s.lif.receiver = .trailing ∧ s.lif.item.own = true ∧ s.lif.sent = some sent ∧ s.heard = h

/-- LIF after a delivery: QUIET, with no item (R104). -/
def deliveredLif (l : Lif) : Lif :=
  { l with
    receiver := .quiet
    item := { bits := [], tooLong := false, missedStart := false, own := false, mismatch := false, endAt := none }
    sent := none }

/-- The next station number in turn order (spec/00). -/
def nextStation (s : State) (h : Nat) : Nat := if h + 1 < s.groupSize then h + 1 else 0

/-- The rotation number after the turn passes from `h` (R91). -/
def rotationAfter (s : State) (r : Word32) (h : Nat) : Word32 := if h + 1 < s.groupSize then r else r + 1

/-- The tracker `t` after the turn passes from `h` (R91, R95). -/
def passedTrk (s : State) (t : Trk) (h : Nat) : Trk :=
  { t with
    holder := some (nextStation s h)
    rotation := rotationAfter s t.rotation h
    moreFollows := false
    transfers := 0
    lone := min (t.lone + 1) (2 * s.groupSize)
    phase := if nextStation s h = s.number then .waiting else .idle }

/-- A valid stream frame other than a FOUND is due: another station's, or the station's own returned by loopback. -/
def DeliversStream (s : State) (g : StreamFrame) : Prop :=
  g.kind ≠ .found ∧ ((Delivers s (.stream g) ∧ g.sender ≠ s.number)
    ∨ (∃ f, DeliversOwn s f (.stream g) ∧ g.sender = s.number))

/-- LIF after the delivery of an item classified as `h`: a profile mismatch and a duplicate sender are marked as reported
(R107, R108). -/
def reportedLif (l : Lif) (h : Heard) : Lif :=
  { deliveredLif l with
    profileReported := match h with | .profile _ => true | _ => l.profileReported
    duplicateReported := match h with | .duplicate => true | _ => l.duplicateReported }

/-- The FOREIGN record of an item's own fault, written once after an ENABLE (R107, R108). -/
def foreignRecords (s : State) : Heard → List Note
  | .profile p => if s.lif.profileReported then [] else [stationNote .foreign s.trk.rotation (.foreign (.profile p))]
  | .duplicate => if s.lif.duplicateReported then [] else [stationNote .foreign s.trk.rotation (.foreign .duplicate)]
  | .stream _ => []
  | .transfer _ => []
  | .fault => []

/-- The tracker after it has adopted a frame from `h` with a rotation, a transfer-in-turn count and more follows, and after
the turn has passed when `passes` (R88, R89, R91). R89 ends an own phase waiting to start on another station's frame; that a
phase transmitting ends too is DEDUCED, log 18. -/
def adoptedFrom (s : State) (h : Nat) (rotation : Word32) (transfers : Nat) (more passes : Bool) : Trk :=
  let t := { s.trk with
    holder := some h, rotation := rotation, aligned := true, reference := s.lif.item.endAt, skipTimer := some 16
    moreFollows := more, transfers := transfers, window := none
    lone := if h = s.number then s.trk.lone else 0
    phase := if h = s.number then s.trk.phase else .idle }
  if passes then passedTrk s t h else t

/-- The tracker after a stream frame (R89, R91): without more follows the turn passes. -/
def adoptedTrk (s : State) (g : StreamFrame) : Trk := adoptedFrom s g.sender g.rotation 0 g.moreFollows (!g.moreFollows)

/-- The transfer-in-turn count with a transfer frame (R89). -/
def transferCount (s : State) (t : TransferFrame) : Nat :=
  if s.trk.holder = some t.sender then s.trk.transfers + 1 else 1

/-- The turn passes at the end of a transfer frame: it is the last, or the eighth of the turn (R91, R93). -/
def transferPasses (s : State) (t : TransferFrame) : Bool := !(t.moreFollows && decide (transferCount s t < 8))

/-- The tracker after a transfer frame (R89, R91). -/
def transferTrk (s : State) (t : TransferFrame) : Trk :=
  adoptedFrom s t.sender t.donorRotation (transferCount s t) t.moreFollows (transferPasses s t)

/-- The stall count after a frame from `h` of a rotation: in AWAITING and GATHERING it counts the rotations that the
adoption and the wrap bring (R90, R122). -/
def stallAfter (s : State) (h : Nat) (rotation : Word32) (passes : Bool) : Nat :=
  if s.xfu.phase = .awaiting ∨ s.xfu.phase = .gathering then
    min (s.xfu.stall + (if later rotation s.trk.rotation then (rotation - s.trk.rotation).toNat else 0)
      + (if passes ∧ s.groupSize ≤ h + 1 then 1 else 0)) 3
  else s.xfu.stall

/-- XFU after TRK has taken a stream frame: the stall count, and a serving plan that goes on only while the station's own
turn does (R90, R122, R137); another station's frame ends it (DEDUCED, log 18). -/
def adoptedXfu (s : State) (g : StreamFrame) : Xfu :=
  { s.xfu with
    stall := stallAfter s g.sender g.rotation (!g.moreFollows)
    plan := if g.sender = s.number ∧ g.moreFollows = true then s.xfu.plan else none }

/-- The station with a valid stream frame taken by LIF and TRK, and as last heard by CMU (R68, R89, R105). -/
def takenFrame (s : State) (g : StreamFrame) : State :=
  { s with
    lif := deliveredLif s.lif
    trk := adoptedTrk s g
    cmu := { s.cmu with lastHeard := some ⟨⟨g.rotation, g.sender⟩, g.check⟩ }
    xfu := adoptedXfu s g }

/-- An item heard as a fault is due: of another station, or what came of a frame that the station sent (R105, R110). -/
def DeliversFault (s : State) (sent : Option Frame) (h : Heard) : Prop :=
  h.isFault = true ∧ match sent with
    | none => Delivers s h
    | some f => DeliversOwn s f h

/-- What CMU and XFU know of a frame the station sent: identity, kind, and whether it is a MEMBER frame without operations
(R69, R78). A transfer frame is identified by its donor rotation and sender (log 15). -/
def sentItem : Frame → OwnItem
  | .stream f => ⟨⟨f.rotation, f.sender⟩, .stream f.kind, decide (f.kind = .member ∧ f.ops = [])⟩
  | .transfer t => ⟨⟨t.donorRotation, t.sender⟩, .transfer, false⟩

/-- The turn passes at the end of a fault: there is a holder, and the station's own turn does not wait to start (R91). -/
def faultPasses (s : State) : Option Nat := if s.trk.phase = .waiting then none else s.trk.holder

/-- The tracker after an item that it takes as a fault while it follows turns (R88, R91, R96). -/
def faultTrk (s : State) : Trk :=
  let t := { s.trk with reference := s.lif.item.endAt, skipTimer := some 16 }
  match faultPasses s with
  | none => t
  | some k => passedTrk s t k

/-- XFU after such an item: at a wrap the stall count rises in AWAITING and GATHERING, and a serving plan ends with its turn
(R96, R122). -/
def faultXfu (s : State) : Xfu :=
  match faultPasses s with
  | none => s.xfu
  | some k => { s.xfu with
      stall := if s.xfu.phase = .awaiting ∨ s.xfu.phase = .gathering then
          min (s.xfu.stall + if s.groupSize ≤ k + 1 then 1 else 0) 3 else s.xfu.stall
      plan := none }

/-- The station with an item taken as a fault by LIF and TRK, and not yet by CMU and XFU (R91, R105, R107, R108). -/
def faulted (s : State) (h : Heard) : State :=
  { s with
    lif := reportedLif s.lif h
    trk := faultTrk s
    xfu := faultXfu s
    ntq := (foreignRecords s h).foldl Ntq.offer s.ntq }

/-- The stream state after a hole; an own item other than a MEMBER frame without operations takes the mark that is none
(R69, R78). -/
def holedCmu (c : Cmu) (own : Option OwnItem) : Cmu :=
  { c with
    holes := min (c.holes + 1) 65535
    ownMark := match c.ownMark, own with
      | none, some o => if o.bare then none else some ⟨o.id, o.kind, true⟩
      | m, _ => m }

/-- The tracker at entry to LISTENING: with the flag set it is kept, with it clear no turn is followed and the listen window
starts (R98, R99, R102; log 25). -/
def listeningTrk (t : Trk) : Trk :=
  if t.aligned then { t with window := none } else { t with holder := none, phase := .idle, window := some 0 }

/-- The station after its join attempt has failed (R132, R147): joiner side, table and stream state cleared, last heard
and the tracker kept, LISTENING. -/
def joinFailed (s : State) (why : JoinFailure) (rotation : Word32) : State :=
  { s with
    trk := listeningTrk s.trk
    cmu := { Cmu.cleared with lastHeard := s.cmu.lastHeard, foundReported := s.cmu.foundReported }
    tbu := Tbu.cleared
    xfu := { s.xfu with
      phase := .idle, joinMark := none, catchup := [], snapshot := none, map := Vector.replicate 65 none
      total := none, wanted := 0, stall := 0 }
    stc := { s.stc with station := .listening, leave := .idle }
    ntq := s.ntq.offer (stateNote .listening .joinFailed (some why) rotation) }

/-- The fate of P under a frame that names it: G's stream check, when it carries one, is C folded with P's check (R70,
R73). -/
def Confirms (c : Cmu) (p g : StreamFrame) : Prop :=
  c.waiting = some p ∧ g.echo = some ⟨⟨p.rotation, p.sender⟩, p.check⟩
    ∧ (g.streamCheck = none ∨ g.streamCheck = some (crc (bytes32 c.check ++ bytes32 p.check)))

/-- G names L, or both are none, and not P; its stream check, when it carries one, is C (R71, R73). -/
def Denies (c : Cmu) (g : StreamFrame) : Prop :=
  (∀ p, c.waiting = some p → g.echo ≠ some ⟨⟨p.rotation, p.sender⟩, p.check⟩) ∧ g.echo = c.last
    ∧ (g.streamCheck = none ∨ g.streamCheck = some c.check)

/-- G names neither P nor L (R72). -/
def NamesUnknown (c : Cmu) (g : StreamFrame) : Prop :=
  (∀ p, c.waiting = some p → g.echo ≠ some ⟨⟨p.rotation, p.sender⟩, p.check⟩) ∧ g.echo ≠ c.last

/-- G names P, or it names L and not P, but carries another stream check than the resolution would give C (R73). -/
def ChecksDiffer (c : Cmu) (g : StreamFrame) : Prop :=
  (∃ p v, c.waiting = some p ∧ g.echo = some ⟨⟨p.rotation, p.sender⟩, p.check⟩ ∧ g.streamCheck = some v
      ∧ v ≠ crc (bytes32 c.check ++ bytes32 p.check))
    ∨ ((∀ p, c.waiting = some p → g.echo ≠ some ⟨⟨p.rotation, p.sender⟩, p.check⟩) ∧ g.echo = c.last
      ∧ ∃ v, g.streamCheck = some v ∧ v ≠ c.check)

/-- G is discordant: by its stream check, whether or not holes are pending, or by an unknown echo with none (R72, R73). -/
def IsDiscordant (c : Cmu) (g : StreamFrame) : Prop := ChecksDiffer c g ∨ (NamesUnknown c g ∧ c.holes = 0)

/-- The stream state after a clean resolution by G (R75, R78): a frame of the station's own takes the own mark, unless it
is a MEMBER frame without operations. -/
def resolvedBy (s : State) (c : Cmu) (g : StreamFrame) : Cmu :=
  { c with
    waiting := some g, holes := 0, discordance := 0, discordSender := none
    ownMark := if g.sender = s.number ∧ ¬ (g.kind = .member ∧ g.ops = []) then
        some ⟨⟨g.rotation, g.sender⟩, .stream g.kind, false⟩ else none
    lastHeard := some ⟨⟨g.rotation, g.sender⟩, g.check⟩ }

/-- The stream state after P is committed and G has become P (R70, R75, R76). -/
def committedBy (s : State) (p g : StreamFrame) : Cmu :=
  { resolvedBy s s.cmu g with
    last := some ⟨⟨p.rotation, p.sender⟩, p.check⟩, check := crc (bytes32 s.cmu.check ++ bytes32 p.check) }

/-- The records of an application that name this station, in their order (R15). -/
def recordsFor (s : State) (out : List Outcome) : List Note := (out.filter (fun o => o.station == s.number)).map (·.note)

/-- The table that the boundaries of a committed frame leave (R59). -/
def boundedTable (s : State) (p : StreamFrame) : App := frameBoundaries s.groupSize s.absenceLimit p s.tbu

/-- The application of a committed frame: its boundaries and its effect (R14, R22, R51). -/
def application (s : State) (p : StreamFrame) : App := frameEffect s.groupSize p (boundedTable s p)

/-- The items of the image that a donor takes at the commit of the JOIN `p`, from the table as its application left it, C
and L (R133). -/
def capturedItems (s : State) (p : StreamFrame) : List SnapItem :=
  .roster ⟨(application s p).tbu.lastApplied.getD 0, crc (bytes32 s.cmu.check ++ bytes32 p.check),
      ⟨⟨p.rotation, p.sender⟩, p.check⟩, (application s p).tbu.roster.toList.take s.groupSize⟩
    :: (application s p).tbu.records.map .record

/-- The donor side at the end of the application of `p` (R53, R133, R138): an image is taken when `p` is a JOIN that names
this station as donor, and released when no JOINING entry names it. -/
def donorAfter (s : State) (p : StreamFrame) (x : Xfu) : Xfu :=
  if p.kind = .join ∧ (boundedTable s p).tbu.joinDonor s.groupSize p.sender = some s.number then
    { x with image := some ⟨p.rotation, p.sender, capturedItems s p⟩, joinerWanted := 0, plan := none }
  else if (application s p).tbu.donor = some s.number then x
  else { x with image := none, joinerWanted := 0, plan := none }

/-- What the donor reads of its joiner's LOADING and READY frames (R134). -/
def wantedAfter (x : Xfu) (g : StreamFrame) : Nat :=
  match x.image with
  | none => x.joinerWanted
  | some img =>
    if g.sender = img.joiner ∧ g.kind = .loading then min g.wanted img.items.length
    else if g.sender = img.joiner ∧ g.kind = .ready then img.items.length
    else x.joinerWanted

/-- XFU after it has read a stream frame as a donor (R134). -/
def servedXfu (x : Xfu) (g : StreamFrame) : Xfu := { x with joinerWanted := wantedAfter x g }

/-- A stream frame reaches the replica of a LOADING station by the command `i`: in REPLAYING as the oldest entry of the
catch-up queue, with its mark as the station's own, and in CONFIRMING from LIF (R67, R85, R128). CMU finds the station as
`v`. -/
def Hands (s v : State) (i : Instr) (g : StreamFrame) (own : Bool) : Prop :=
  s.stc.station = .loading
    ∧ ((i = .replayEntry ∧ s.pins.resetLow = false ∧ s.xfu.phase = .replaying
        ∧ ∃ rest, s.xfu.catchup = .frame g own :: rest ∧ v = { s with xfu := { s.xfu with catchup := rest } })
      ∨ (i = .itemDelivery ∧ s.xfu.phase = .confirming ∧ DeliversStream s g ∧ own = decide (g.sender = s.number)
        ∧ v = takenFrame s g))

/-- A fault reaches the replica of a LOADING station by the command `i`, of the station's own when `own` says what it sent;
CMU finds the station as `v` (R67, R85, R128). -/
def HandsHole (s v : State) (i : Instr) (own : Option OwnItem) : Prop :=
  s.stc.station = .loading
    ∧ ((i = .replayEntry ∧ s.pins.resetLow = false ∧ s.xfu.phase = .replaying
        ∧ ∃ rest, s.xfu.catchup = .hole own :: rest ∧ v = { s with xfu := { s.xfu with catchup := rest } })
      ∨ (i = .itemDelivery ∧ s.xfu.phase = .confirming ∧ ∃ sent h, DeliversFault s sent h ∧ own = sent.map sentItem
        ∧ v = faulted s h))

/-- XFU after an entry is resolved: replay is over when no entry is left (R128; log 11). -/
def replayedXfu (x : Xfu) : Xfu := { x with phase := if x.phase = .replaying ∧ x.catchup = [] then .confirming else x.phase }

/-- The stream state after a clean resolution by G at a LOADING replica (R75, R78). -/
def cleanedBy (c : Cmu) (g : StreamFrame) (own : Bool) : Cmu :=
  { c with
    waiting := some g, holes := 0, discordance := 0, discordSender := none
    ownMark := if own = true ∧ ¬ (g.kind = .member ∧ g.ops = []) then
        some ⟨⟨g.rotation, g.sender⟩, .stream g.kind, false⟩ else none }

/-- The slot of the assembly map with a transfer frame written into it (R125). -/
def filledSlot (s : State) (t : TransferFrame) (i : Nat) : Option SnapItem :=
  if t.first ≤ i ∧ i < t.first + t.items.length then t.items[i - t.first]? else s.xfu.slot i

/-- A transfer frame is stored at its joiner: it is for this station and its JOIN, its total is the known one, and its
roster item names the JOIN as L (R125). -/
def StoresTransfer (s : State) (snap : FrameRef) (t : TransferFrame) : Prop :=
  s.xfu.snapshot = some snap ∧ t.joiner = s.number ∧ t.snapRotation = snap.id.rotation
    ∧ (∀ n, s.xfu.total = some n → n = t.total) ∧ (∀ r, .roster r ∈ t.items → r.last = snap)

/-- The stall count after a transfer frame is stored: 0 when it fills an empty slot (R125). -/
def storedStall (s : State) (t : TransferFrame) : Nat :=
  if ∃ i < t.items.length, s.xfu.slot (t.first + i) = none then 0
  else stallAfter s t.sender t.donorRotation (transferPasses s t)

/-- The map with `t` written into it is complete, with the items of `ros` and `recs` (R125). -/
def CompletesMap (s : State) (t : TransferFrame) (ros : RosterItem) (recs : List ResRecord) : Prop :=
  t.total = recs.length + 1 ∧ t.total ≤ 65 ∧ filledSlot s t 0 = some (.roster ros)
    ∧ ∀ i < recs.length, filledSlot s t (i + 1) = (recs[i]?).map .record

end Sys2Proof.Machine
end

