-- ==== Sys2Proof/WellFormed.lean ====
section
/-! DEFINITION. Which commands are well formed: the checks that tie a row of the table to its operands. -/

namespace Sys2Proof

/-- The codes of CMD that name a command (R183). -/
def isCommandCode (code : Word16) : Bool := 1 ≤ code.toNat && code.toNat ≤ 9

/-- The addresses whose write has a row of its own: CONFIG, IRQEN and CMD (R182, R183, register map). -/
def hasOwnWriteRow (addr : BitVec 5) : Bool := addr == 0x00#5 || addr == 0x01#5 || addr == 0x06#5

/-- A command is well formed when its operands belong to its row: BADCMD carries a code that names no command, and
REGISTER_WRITE an address without behaviour of its own. Every other command is well formed. -/
def Instr.wellFormed : Instr → Bool
  | .badCmd code => !isCommandCode code
  | .registerWrite addr _ => !hasOwnWriteRow addr
  | .enable => true
  | .leave => true
  | .disable => true
  | .portReset => true
  | .post => true
  | .cancel => true
  | .pop => true
  | .clearLost => true
  | .inquire => true
  | .rothiRead => true
  | .configWrite _ => true
  | .irqenWrite _ => true
  | .pinReset _ => true
  | .activityBegins => true
  | .itemDelivery => true
  | .skipPoint => true
  | .listenWindowExpiry => true
  | .frameStart => true
  | .transmissionEnd => true
  | .loopbackMismatch => true
  | .alignmentLoss => true
  | .joinStall => true
  | .replayEntry => true
  | .activityStops _ => true
  | .resetRelease => true

end Sys2Proof
end

