-- ==== Sys2Proof/Certificates/Slice0/Obligations.lean ====
section
/-! DEFINITION. The statements for the provers, from the rules of spec/: one `def Obligations.<Name> : Prop` each. -/

open Sys2Proof Sys2Proof.Machine

/-! ### The step -/

/-- A step takes the command at the front of the queue and runs it on the state with the queue's rest. -/
def Obligations.StepRunsTheFrontCommand : Prop :=
  ∀ (c : Instr) (rest : List Instr) (s : State), s.pending = c :: rest → step s = exec c { s with pending := rest }

/-- On an empty queue one bit time passes (the model's choice, log 2): the clock counts, and while the line is QUIET the
skip timer and the listen window count where they run. -/
def Obligations.EmptyQueueLetsOneBitTimePass : Prop :=
  ∀ s : State, s.pending = [] →
    (s.lif.receiver ≠ .quiet → step s = .next { s with clock := s.clock + 1 })
    ∧ (s.lif.receiver = .quiet → step s = .next { s with
        clock := s.clock + 1
        trk := { s.trk with
          skipTimer := s.trk.skipTimer.map (fun k => min (k + 1) 64)
          window := s.trk.window.map (fun k => min (k + 1) (42000 * (2 * s.groupSize + 1) + 1024 * s.number)) } })

/-- No command stops the station, and none touches the queue of waiting commands or the clock.
What an event does that cannot arise is the model's choice (log 3), and so is the clock (log 2). -/
def Obligations.NoCommandStopsTheStation : Prop :=
  ∀ (c : Instr) (s : State), ∃ t, exec c s = .next t ∧ t.pending = s.pending ∧ t.clock = s.clock

/-! ### The notification queue (chapter 10) -/

/-- POP (R177), and the words that show the queue: HEAD0 to HEAD4, QCOUNT and LOSTCNT (R184, register map, codes and HEAD4
details of 11.4). Of a word with fields only the fields are stated (log 29). -/
def Obligations.PopTakesTheHeadRecord : Prop :=
  (∀ (s : State) (n : Note) (rest : List Note), s.pins.resetLow = false → s.ntq.queue = n :: rest →
    exec .pop s = .next { s with
      ntq := { s.ntq with queue := rest, head := some n }, lpt := { s.lpt with cmd := 7, result := .ok } })
  ∧ (∀ s : State, s.pins.resetLow = false → s.ntq.queue = [] →
    exec .pop s = .next { s with lpt := { s.lpt with cmd := 7, result := .empty } })
  ∧ (∀ (s : State) (n : Note), s.pins.resetLow = false → s.ntq.queue = [] →
    (∃ t, exec .pop s = .next t ∧ t.lpt.result = .empty ∧ (t.offer n).ntq.queue = [n])
    ∧ (∃ t, exec .pop (s.offer n) = .next t ∧ t.lpt.result = .ok ∧ t.ntq.queue = [] ∧ t.ntq.head = some n))
  ∧ (∀ s : State, s.ntq.head = none → ∀ a ∈ [0x0C#5, 0x0D#5, 0x0E#5, 0x0F#5, 0x10#5], s.readWord a = 0)
  ∧ (∀ (s : State) (n : Note), s.ntq.head = some n →
    (s.readWord 0x0C).extractLsb' 0 5 = (match n.kind with
        | .granted => 1 | .queued => 2 | .busy => 3 | .refused => 4 | .released => 5 | .renewed => 6 | .withdrawn => 7
        | .downgraded => 8 | .cancelled => 9 | .aborted => 10 | .timedOut => 11 | .expired => 12 | .lost => 13
        | .state => 14 | .diverged => 15 | .foreign => 16)
      ∧ (s.readWord 0x0C).extractLsb' 5 2 = (match n.mode with | none => 0 | some .shared => 1 | some .exclusive => 2)
      ∧ (s.readWord 0x0C).getLsbD 7 = n.tag.isSome ∧ (s.readWord 0x0C).extractLsb' 8 8 = n.tag.getD 0
      ∧ s.readWord 0x0D = n.resource.getD 0 ∧ s.readWord 0x0E ++ s.readWord 0x0F = n.rotation
      ∧ (n.detail = .absent ∨ n.detail = .expiry none → s.readWord 0x10 = 0)
      ∧ (∀ e, n.detail = .expiry (some e) → (e - n.rotation).toNat < 65536 →
        n.rotation + (s.readWord 0x10).setWidth 32 = e)
      ∧ (∀ k, n.detail = .position k → k < 65536 → (s.readWord 0x10).toNat = k)
      ∧ (∀ why, n.detail = .reason why → s.readWord 0x10 = (match why with
          | .alreadyHeld => 1 | .alreadyWaiting => 2 | .quota => 3 | .claimsFull => 4 | .tableFull => 5 | .notHeld => 6
          | .notWaiting => 7 | .notExclusive => 8))
      ∧ (∀ st why f, n.detail = .state st why f →
        (s.readWord 0x10).extractLsb' 0 3 = (match st with
            | .halted => 0 | .listening => 1 | .founding => 2 | .joining => 3 | .loading => 4 | .member => 5
            | .leaving => 6 | .detached => 7)
          ∧ (s.readWord 0x10).extractLsb' 4 4 = (match why with
            | .enabled => 1 | .founding => 2 | .founded => 3 | .collided => 4 | .absent => 5 | .joinSent => 6
            | .loading => 7 | .member => 8 | .joinFailed => 9 | .leaving => 10 | .left => 11 | .diverged => 12
            | .halted => 13)
          ∧ (s.readWord 0x10).extractLsb' 8 3 = (match f with
            | none => 0 | some .diverged => 1 | some .stall => 2 | some .catchupFull => 3 | some .removed => 4))
      ∧ (∀ c, n.detail = .cause c → s.readWord 0x10 = (match c with | .missed => 1 | .discordant => 2))
      ∧ (∀ d, n.detail = .foreign d →
        (s.readWord 0x10).extractLsb' 8 2 = (match d with | .profile _ => 1 | .found _ => 2 | .duplicate => 3)
          ∧ (s.readWord 0x10).extractLsb' 0 8 = (match d with
            | .profile received => received | .found h => BitVec.ofNat 8 h | .duplicate => 0)))
  ∧ (∀ s : State, (s.ntq.queue.length ≤ 64 → ((s.readWord 0x11).extractLsb' 0 7).toNat = s.ntq.queue.length)
    ∧ (s.ntq.lost ≤ 65535 → (s.readWord 0x12).toNat = s.ntq.lost))

/-- CLEAR LOST (R178). -/
def Obligations.ClearLostClearsCountAndFlag : Prop :=
  ∀ s : State, s.pins.resetLow = false →
    exec .clearLost s = .next { s with
      ntq := { s.ntq with lost := 0, overflow := false }, lpt := { s.lpt with cmd := 8, result := .ok } }
    ∧ ∀ n : Note, 64 ≤ s.ntq.queue.length →
      (∃ t, exec .clearLost s = .next t ∧ (t.offer n).ntq.lost = 1 ∧ (t.offer n).ntq.overflow = true)
      ∧ (∃ t, exec .clearLost (s.offer n) = .next t ∧ t.ntq.lost = 0 ∧ t.ntq.overflow = false)

/-- The offer of a record, and the ways a record enters and leaves the queue (R176). -/
def Obligations.RecordsEnterByOfferAndLeaveByPopOrReset : Prop :=
  (∀ (s : State) (n : Note), s.ntq.queue.length < 64 →
    s.offer n = { s with ntq := { s.ntq with queue := s.ntq.queue ++ [n] } })
  ∧ (∀ (s : State) (n : Note), 64 ≤ s.ntq.queue.length →
    s.offer n = { s with ntq := { s.ntq with lost := min (s.ntq.lost + 1) 65535, overflow := true } })
  ∧ (∀ (s : State) (n m : Note) (rest : List Note), s.pins.resetLow = false → s.ntq.queue = m :: rest →
    s.ntq.queue.length = 64 →
      (∃ t, exec .pop s = .next t ∧ (t.offer n).ntq.queue = rest ++ [n] ∧ (t.offer n).ntq.lost = s.ntq.lost)
      ∧ (∃ t, exec .pop (s.offer n) = .next t ∧ t.ntq.queue = rest ∧ t.ntq.lost = min (s.ntq.lost + 1) 65535))
  ∧ (∀ (c : Instr) (s t : State), c.wellFormed = true → c ≠ .pop → c ≠ .clearLost → c ≠ .portReset →
    (∀ sn, c ≠ .pinReset sn) → exec c s = .next t → ∃ ns : List Note, t.ntq = ns.foldl Ntq.offer s.ntq)
  ∧ (∀ (c : Instr) (s t : State), s.ntq.queue.length ≤ 64 → exec c s = .next t → t.ntq.queue.length ≤ 64)

/-- INT (R179). -/
def Obligations.InterruptLineFollowsItsCondition : Prop :=
  (∀ s : State, s.intAsserted = true ↔ s.pins.resetLow = false
    ∧ ((s.ntq.queue ≠ [] ∧ s.lpt.irqNonEmpty = true) ∨ (s.ntq.overflow = true ∧ s.lpt.irqOverflow = true)))
  ∧ (∀ (s : State) (w : Word16), s.pins.resetLow = false → ∃ t, exec (.irqenWrite w) s = .next t
    ∧ (t.intAsserted = true ↔
      (s.ntq.queue ≠ [] ∧ w.getLsbD 0 = true) ∨ (s.ntq.overflow = true ∧ w.getLsbD 1 = true)))
  ∧ (∀ (s : State) (sn : BitVec 4), ∃ t u, exec (.pinReset sn) s = .next t ∧ exec .resetRelease t = .next u
    ∧ t.intAsserted = false ∧ u.intAsserted = false ∧ u.lpt.irqNonEmpty = false ∧ u.lpt.irqOverflow = false)
  ∧ (∀ s : State, s.pins.resetLow = false → ∃ t, exec .portReset s = .next t ∧ t.intAsserted = false
    ∧ t.lpt.irqNonEmpty = s.lpt.irqNonEmpty ∧ t.lpt.irqOverflow = s.lpt.irqOverflow)

/-! ### The local port (chapter 11) -/

/-- The read of ROTHI and the rotation latch (R181). The field `readData` is the model's own (log 22): the word driven on
the bus. -/
def Obligations.RothiReadLatchesTheLowerHalf : Prop :=
  (∀ s : State, s.pins.resetLow = false →
    exec .rothiRead s = .next { s with lpt := { s.lpt with
      readData := some (s.trk.rotation.extractLsb' 16 16), latch := s.trk.rotation.extractLsb' 0 16 } })
  ∧ (∀ (s t : State) (c d : BusCycle), s.pins.resetLow = false → c.isRead = true → c.addr = 0x04 → d.isRead = true →
    d.addr = 0x05 → exec .rothiRead s = .next t →
    c.command = some .rothiRead ∧ d.command = none
      ∧ ∃ hi lo : Word16, s.drives c = some hi ∧ t.lpt.readData = some hi ∧ t.drives d = some lo
        ∧ hi ++ lo = s.trk.rotation)
  ∧ (∀ s : State, s.readWord 0x05 = s.lpt.latch)
  ∧ (∀ (s : State) (sn : BitVec 4), ∃ t, exec (.pinReset sn) s = .next t ∧ t.lpt.latch = 0)
  ∧ (∀ s : State, s.pins.resetLow = false → ∃ t, exec .portReset s = .next t ∧ t.lpt.latch = 0)
  ∧ (∀ (c : Instr) (s t : State), c.wellFormed = true → c ≠ .rothiRead → c ≠ .portReset → (∀ sn, c ≠ .pinReset sn) →
    exec c s = .next t → t.lpt.latch = s.lpt.latch)

/-- CONFIG, IRQEN, STATUS and STRAP (R182), and CMD and RESULT as they read (R183, codes of 11.4). That the bits of STRAP
and RESULT without a field read 0: log 29. -/
def Obligations.ConfigurationWordsAndTheirResets : Prop :=
  (∀ (s : State) (w : Word16), s.pins.resetLow = false → s.stc.station = .halted →
    exec (.configWrite w) s = .next { s with
      stc := { s.stc with
        config := { n := w.extractLsb' 0 5, rate := w.extractLsb' 8 2, m := w.extractLsb' 12 3 } }
      lpt := { s.lpt with writeIgnored := false } })
  ∧ (∀ (s : State) (w : Word16), s.pins.resetLow = false → s.stc.station ≠ .halted →
    exec (.configWrite w) s = .next { s with lpt := { s.lpt with writeIgnored := true } })
  ∧ (∀ (s : State) (w : Word16), s.pins.resetLow = false →
    exec (.irqenWrite w) s = .next { s with
      lpt := { s.lpt with irqNonEmpty := w.getLsbD 0, irqOverflow := w.getLsbD 1 } })
  ∧ (∀ s : State, s.pins.resetLow = false →
    ((s.readWord 0x00).extractLsb' 0 5 = s.stc.config.n ∧ (s.readWord 0x00).extractLsb' 8 2 = s.stc.config.rate
      ∧ (s.readWord 0x00).extractLsb' 12 3 = s.stc.config.m)
    ∧ ((s.readWord 0x01).getLsbD 0 = s.lpt.irqNonEmpty ∧ (s.readWord 0x01).getLsbD 1 = s.lpt.irqOverflow)
    ∧ s.readWord 0x02 = s.stc.strap.setWidth 16
    ∧ ((s.readWord 0x03).extractLsb' 0 3 = (match s.stc.station with
          | .halted => 0 | .listening => 1 | .founding => 2 | .joining => 3 | .loading => 4 | .member => 5 | .leaving => 6
          | .detached => 7)
      ∧ (s.readWord 0x03).getLsbD 4 = s.trk.aligned ∧ (s.readWord 0x03).getLsbD 5 = s.lpt.writeIgnored
      ∧ (s.readWord 0x03).getLsbD 6 = s.ntq.overflow)
    ∧ s.readWord 0x06 = s.lpt.cmd
    ∧ s.readWord 0x07 = (match s.lpt.result with
      | .none => 0 | .ok => 1 | .badState => 2 | .badConfig => 3 | .badArg => 4 | .tagBusy => 5 | .qFull => 6
      | .inFlight => 7 | .notFound => 8 | .empty => 9 | .badCmd => 10))
  ∧ (∀ (s : State) (sn : BitVec 4), ∃ t, exec (.pinReset sn) s = .next t
    ∧ t.stc = { station := .halted, leave := .idle, config := { n := 2, rate := 0, m := 2 }, strap := sn }
    ∧ t.lpt.irqNonEmpty = false ∧ t.lpt.irqOverflow = false ∧ t.lpt.writeIgnored = false ∧ t.trk.aligned = false
    ∧ t.ntq.overflow = false)
  ∧ (∀ s : State, s.pins.resetLow = false → ∃ t, exec .portReset s = .next t
    ∧ t.stc = { s.stc with station := .halted, leave := .idle }
    ∧ t.lpt.irqNonEmpty = s.lpt.irqNonEmpty ∧ t.lpt.irqOverflow = s.lpt.irqOverflow ∧ t.lpt.writeIgnored = false
    ∧ t.trk.aligned = false ∧ t.ntq.overflow = false)
  ∧ (∀ s : State, s.pins.resetLow = false → s.stc.station ≠ .halted → ∃ t, exec .disable s = .next t
    ∧ t.stc = { s.stc with station := .halted, leave := .idle }
    ∧ t.lpt.irqNonEmpty = s.lpt.irqNonEmpty ∧ t.lpt.irqOverflow = s.lpt.irqOverflow
    ∧ t.lpt.writeIgnored = s.lpt.writeIgnored ∧ t.trk.aligned = false
    ∧ (s.ntq.queue.length + s.rqu.inflight.length + s.rqu.outgoing.length < 64 → t.ntq.overflow = s.ntq.overflow))

/-- Bus cycles (R180, R183). A write to a word without behaviour of its own: the five host words store it, and a read
returns it whole (log 30); every other address takes nothing. A write cycle is the command of its address; a read
cycle drives the word of its address and, but for ROTHI, is no command; a cycle with RD and WR both low, or neither,
drives nothing and is no command; while RESET is low nothing is driven. -/
def Obligations.RegisterWriteStoresTheWord : Prop :=
  (∀ (s : State) (a : BitVec 5) (w : Word16), s.pins.resetLow = false → a ≠ 0x00 → a ≠ 0x01 → a ≠ 0x06 →
    ∃ t, exec (.registerWrite a w) s = .next t
      ∧ t = { s with lpt := { s.lpt with
          stage0 := if a = 0x08 then w else s.lpt.stage0
          stage1 := if a = 0x09 then w else s.lpt.stage1
          stage2 := if a = 0x0A then w else s.lpt.stage2
          stage3 := if a = 0x0B then w else s.lpt.stage3
          inqKey := if a = 0x13 then w else s.lpt.inqKey } }
      ∧ (a = 0x08 ∨ a = 0x09 ∨ a = 0x0A ∨ a = 0x0B ∨ a = 0x13 → t.readWord a = w))
  ∧ (∀ (s : State) (c : BusCycle), c.cs = true → c.rd = true → c.wr = false →
    (s.pins.resetLow = false → s.drives c = some (s.readWord c.addr))
      ∧ (c.addr ≠ 0x04 → c.command = none ∧ s.hostCycle c = s) ∧ (c.addr = 0x04 → c.command = some .rothiRead)
      ∧ (0x17 ≤ c.addr.toNat → s.readWord c.addr = 0))
  ∧ (∀ (s : State) (c : BusCycle), c.cs = true → c.wr = true → c.rd = false →
    s.drives c = none
      ∧ (c.addr = 0x00 → c.command = some (.configWrite c.data)) ∧ (c.addr = 0x01 → c.command = some (.irqenWrite c.data))
      ∧ (c.addr = 0x06 → (c.data = 1 → c.command = some .enable) ∧ (c.data = 2 → c.command = some .leave)
        ∧ (c.data = 3 → c.command = some .disable) ∧ (c.data = 4 → c.command = some .portReset)
        ∧ (c.data = 5 → c.command = some .post) ∧ (c.data = 6 → c.command = some .cancel)
        ∧ (c.data = 7 → c.command = some .pop) ∧ (c.data = 8 → c.command = some .clearLost)
        ∧ (c.data = 9 → c.command = some .inquire)
        ∧ (c.data = 0 ∨ 9 < c.data.toNat → c.command = some (.badCmd c.data)))
      ∧ (c.addr ≠ 0x00 → c.addr ≠ 0x01 → c.addr ≠ 0x06 → c.command = some (.registerWrite c.addr c.data))
      ∧ (∀ i, c.command = some i → i.wellFormed = true ∧ s.hostCycle c = { s with pending := s.pending ++ [i] }
        ∧ (s.pins.resetLow = true → exec i s = .next s)))
  ∧ (∀ (s : State) (c : BusCycle), c.cs = false ∨ c.rd = c.wr →
    s.drives c = none ∧ c.command = none ∧ s.hostCycle c = s)
  ∧ (∀ (s : State) (c : BusCycle), s.pins.resetLow = true → s.drives c = none)

/-- A code that names no command (R183): CMD is left as it was, RESULT is BADCMD, nothing else changes. -/
def Obligations.UnknownCodeOnlySetsTheResult : Prop :=
  ∀ (s : State) (code : Word16), s.pins.resetLow = false → code = 0 ∨ 9 < code.toNat →
    exec (.badCmd code) s = .next { s with lpt := { s.lpt with result := .badCmd } }

/-- INQUIRE (R16, R185), with INQ0 to INQ2 as they read (register map). CMD after a refusal: log 12. -/
def Obligations.InquireAnswersFromTheTable : Prop :=
  (∀ s : State, s.readWord 0x14 = s.lpt.inq0 ∧ s.readWord 0x15 = s.lpt.inq1 ∧ s.readWord 0x16 = s.lpt.inq2)
  ∧ ∀ s : State, s.pins.resetLow = false →
    (s.stc.station ≠ .member → s.stc.station ≠ .leaving →
      exec .inquire s = .next { s with lpt := { s.lpt with cmd := 9, result := .badState } })
    ∧ (s.stc.station = .member ∨ s.stc.station = .leaving →
      (s.lpt.inqKey = 0 → exec .inquire s = .next { s with lpt := { s.lpt with cmd := 9, result := .badArg } })
      ∧ (s.lpt.inqKey ≠ 0 → (∀ r ∈ s.tbu.records, r.resource ≠ s.lpt.inqKey) →
        exec .inquire s = .next { s with lpt := { s.lpt with cmd := 9, result := .ok, inq0 := 0, inq1 := 0, inq2 := 0 } })
      ∧ (∀ r, s.lpt.inqKey ≠ 0 → s.tbu.find s.lpt.inqKey = some r → r.holders.length ≤ 16 → r.waiters.length ≤ 15 →
        ∃ w0 w1 w2 : Word16,
          exec .inquire s = .next { s with
            lpt := { s.lpt with cmd := 9, result := .ok, inq0 := w0, inq1 := w1, inq2 := w2 } }
          ∧ (w0.extractLsb' 11 5).toNat = (if ∃ c ∈ r.holders, c.mode = .exclusive then 31 else r.holders.length)
          ∧ (w0.extractLsb' 7 4).toNat = r.waiters.length
          ∧ (∀ c, r.holding s.number = some c →
            (w0.extractLsb' 2 5).toNat = 16 ∧ (w0.getLsbD 1 = true ↔ c.mode = .exclusive)
              ∧ (w0.getLsbD 0 = true ↔ c.expiry = none) ∧ (w1 ++ w2 : BitVec 32) = (c.expiry.getD 0 : Word32))
          ∧ (∀ i c, r.holding s.number = none → r.waiters[i]? = some c → c.station = s.number →
            (∀ j d, j < i → r.waiters[j]? = some d → d.station ≠ s.number) →
            (w0.extractLsb' 2 5).toNat = i + 1 ∧ (w0.getLsbD 1 = true ↔ c.mode = .exclusive)
              ∧ (w0.getLsbD 0 = true ↔ c.expiry = none) ∧ (w1 ++ w2 : BitVec 32) = (c.expiry.getD 0 : Word32))
          ∧ ((∀ c ∈ r.holders ++ r.waiters, c.station ≠ s.number) →
            (w0.extractLsb' 0 7).toNat = 0 ∧ w1 = 0 ∧ w2 = 0)))

/-! ### Host requests (chapter 9) -/

/-- POST (R157): the first check that fails decides the result; when none fails the request is accepted.
CMD after a refusal: log 12. -/
def Obligations.PostIsDecidedByTheFirstFailingCheck : Prop :=
  ∀ s : State, s.pins.resetLow = false →
    (s.stc.station ≠ .member →
      exec .post s = .next { s with lpt := { s.lpt with cmd := 5, result := .badState } })
    ∧ (s.stc.station = .member → ¬ StagedWellFormed s.lpt →
      exec .post s = .next { s with lpt := { s.lpt with cmd := 5, result := .badArg } })
    ∧ (s.stc.station = .member → StagedWellFormed s.lpt → (stagedRecord s.lpt).tag ∈ s.rqu.live →
      exec .post s = .next { s with lpt := { s.lpt with cmd := 5, result := .tagBusy } })
    ∧ (s.stc.station = .member → StagedWellFormed s.lpt → (stagedRecord s.lpt).tag ∉ s.rqu.live →
      32 ≤ s.rqu.live.length →
      exec .post s = .next { s with lpt := { s.lpt with cmd := 5, result := .qFull } })
    ∧ (s.stc.station = .member → StagedWellFormed s.lpt → (stagedRecord s.lpt).tag ∉ s.rqu.live →
      s.rqu.live.length < 32 →
      exec .post s = .next { s with
        rqu := { s.rqu with
          outgoing := s.rqu.outgoing ++ [stagedRecord s.lpt], live := s.rqu.live ++ [(stagedRecord s.lpt).tag] }
        lpt := { s.lpt with cmd := 5, result := .ok } })

/-- CANCEL (R167). -/
def Obligations.CancelRemovesOnlyAQueuedRequest : Prop :=
  ∀ s : State, s.pins.resetLow = false →
    (∀ (before after : List Request) (q : Request), s.rqu.outgoing = before ++ q :: after →
      q.tag = s.lpt.stage0.extractLsb' 8 8 → (∀ b ∈ before, b.tag ≠ q.tag) →
      exec .cancel s = .next { s with
        rqu := { s.rqu with outgoing := before ++ after, live := s.rqu.live.erase q.tag }
        ntq := s.ntq.offer { kind := .cancelled, tag := some q.tag, resource := some q.resource,
                             mode := if q.kind = .acquire then q.mode else none, rotation := s.trk.rotation,
                             detail := .absent }
        lpt := { s.lpt with cmd := 6, result := .ok } })
    ∧ ((∀ q ∈ s.rqu.outgoing, q.tag ≠ s.lpt.stage0.extractLsb' 8 8) →
      ((∃ q ∈ s.rqu.inflight, q.tag = s.lpt.stage0.extractLsb' 8 8) →
        exec .cancel s = .next { s with lpt := { s.lpt with cmd := 6, result := .inFlight } })
      ∧ ((∀ q ∈ s.rqu.inflight, q.tag ≠ s.lpt.stage0.extractLsb' 8 8) →
        exec .cancel s = .next { s with lpt := { s.lpt with cmd := 6, result := .notFound } }))

/-- The moves of a request keep the Request Unit sound (R156, R159, R160): every command keeps the live tags equal to the
tags of the in-flight list and the queue, without repetition and within the places, so that no request is lost or
doubled. -/
def Obligations.EveryCommandKeepsTheRequestsSound : Prop :=
  ∀ (c : Instr) (s t : State), RequestsSound s.rqu → exec c s = .next t → RequestsSound t.rqu

/-! ### Station control (chapter 8) -/

/-- ENABLE (R143). CMD after a refusal: log 12; the tracker that enters LISTENING unaligned: log 25. -/
def Obligations.EnableStartsListening : Prop :=
  ∀ s : State, s.pins.resetLow = false →
    (s.stc.station ≠ .halted → s.stc.station ≠ .detached →
      exec .enable s = .next { s with lpt := { s.lpt with cmd := 1, result := .badState } })
    ∧ (s.stc.station = .halted →
      ¬ ((2 ≤ s.stc.config.n.toNat ∧ s.stc.config.n.toNat ≤ 16) ∧ (1 ≤ s.stc.config.m.toNat ∧ s.stc.config.m.toNat ≤ 4)
        ∧ s.stc.strap.toNat < s.stc.config.n.toNat) →
      exec .enable s = .next { s with lpt := { s.lpt with cmd := 1, result := .badConfig } })
    ∧ (s.stc.station = .halted →
      ((2 ≤ s.stc.config.n.toNat ∧ s.stc.config.n.toNat ≤ 16) ∧ (1 ≤ s.stc.config.m.toNat ∧ s.stc.config.m.toNat ≤ 4)
        ∧ s.stc.strap.toNat < s.stc.config.n.toNat) →
      exec .enable s = .next { s with
        lif := { Lif.cleared with
          receiver := if s.pins.lineActive then .active else .quiet
          item := { LineItem.blank with missedStart := s.pins.lineActive }
          profile := some ((crc [s.stc.config.n.setWidth 8, s.stc.config.rate.setWidth 8,
            s.stc.config.m.setWidth 8]).setWidth 8)
          rate := some s.stc.config.rate }
        trk := { Trk.cleared with window := some 0 }
        cmu := Cmu.cleared, tbu := Tbu.cleared, xfu := Xfu.cleared
        stc := { s.stc with station := .listening }
        ntq := s.ntq.offer (stateNote .listening .enabled none s.trk.rotation)
        lpt := { s.lpt with cmd := 1, result := .ok } })
    ∧ (s.stc.station = .detached → ∃ t, exec .enable s = .next t
      ∧ t = { s with
          lif := { s.lif with
            profile := some ((crc [s.stc.config.n.setWidth 8, s.stc.config.rate.setWidth 8,
              s.stc.config.m.setWidth 8]).setWidth 8)
            profileReported := false, duplicateReported := false }
          trk := t.trk
          cmu := { Cmu.cleared with lastHeard := s.cmu.lastHeard }, tbu := Tbu.cleared, xfu := Xfu.cleared
          stc := { s.stc with station := .listening }
          ntq := s.ntq.offer (stateNote .listening .enabled none s.trk.rotation)
          lpt := { s.lpt with cmd := 1, result := .ok } }
      ∧ t.trk.rotation = s.trk.rotation ∧ t.trk.aligned = s.trk.aligned ∧ t.trk.reference = s.trk.reference
      ∧ t.trk.skipTimer = s.trk.skipTimer ∧ t.trk.moreFollows = s.trk.moreFollows
      ∧ t.trk.transfers = s.trk.transfers ∧ t.trk.lone = s.trk.lone
      ∧ (s.trk.aligned = true → t.trk.holder = s.trk.holder ∧ t.trk.phase = s.trk.phase ∧ t.trk.window = none)
      ∧ (s.trk.aligned = false → t.trk.holder = none ∧ t.trk.window = some 0))

/-- LEAVE (R148). CMD after a refusal: log 12. -/
def Obligations.LeaveAbortsTheQueueAndDrains : Prop :=
  ∀ s : State, s.pins.resetLow = false →
    (s.stc.station ≠ .member →
      exec .leave s = .next { s with lpt := { s.lpt with cmd := 2, result := .badState } })
    ∧ (s.stc.station = .member →
      exec .leave s = .next { s with
        rqu := { s.rqu with
          outgoing := [], live := s.rqu.outgoing.foldl (fun l q => l.erase q.tag) s.rqu.live }
        ntq := (s.rqu.outgoing.map (requestNote .aborted s.trk.rotation)
          ++ [stateNote .leaving .leaving none s.trk.rotation]).foldl Ntq.offer s.ntq
        stc := { s.stc with station := .leaving, leave := .draining }
        lpt := { s.lpt with cmd := 2, result := .ok } })

/-- DISABLE (R154). Whether the line is active afterwards is left to the line. That LIF then holds no line rate is the
model's choice (log 31). -/
def Obligations.DisableHaltsTheStation : Prop :=
  ∀ s : State, s.pins.resetLow = false →
    (s.stc.station = .halted →
      exec .disable s = .next { s with lpt := { s.lpt with cmd := 3, result := .ok } })
    ∧ (s.stc.station ≠ .halted → ∃ active,
      exec .disable s = .next { s with
        lif := { Lif.cleared with
          profile := s.lif.profile, profileReported := s.lif.profileReported
          duplicateReported := s.lif.duplicateReported }
        trk := Trk.cleared
        cmu := { Cmu.cleared with foundReported := s.cmu.foundReported }
        tbu := Tbu.cleared
        rqu := { outgoing := [], inflight := [], carrier := none
                 live := (s.rqu.inflight ++ s.rqu.outgoing).foldl (fun l q => l.erase q.tag) s.rqu.live }
        xfu := Xfu.cleared
        stc := { s.stc with station := .halted, leave := .idle }
        ntq := ((s.rqu.inflight ++ s.rqu.outgoing).map (requestNote .aborted s.trk.rotation)
          ++ [stateNote .halted .halted none s.trk.rotation]).foldl Ntq.offer s.ntq
        lpt := { s.lpt with cmd := 3, result := .ok }
        pins := { s.pins with lineActive := active } })

/-- The pin reset, its release and PORT RESET (R155). Whether the line is active is left to the line; `readData` is the
model's own field (log 22). That LIF holds no line rate after a reset is the model's choice (log 31). -/
def Obligations.ResetsClearTheStation : Prop :=
  (∀ (s : State) (sn : BitVec 4), ∃ active,
    exec (.pinReset sn) s = .next { s with
      lif := Lif.cleared, trk := Trk.cleared, cmu := Cmu.cleared, tbu := Tbu.cleared, rqu := Rqu.cleared
      ntq := Ntq.cleared, xfu := Xfu.cleared
      stc := { station := .halted, leave := .idle, config := { n := 2, rate := 0, m := 2 }, strap := sn }
      lpt := Lpt.cleared
      pins := { resetLow := true, lineActive := active } })
  ∧ (∀ (c : Instr) (s : State), s.pins.resetLow = true → (∀ sn, c ≠ .pinReset sn) → c ≠ .resetRelease → ∃ active,
    exec c s = .next { s with pins := { s.pins with lineActive := active } })
  ∧ (∀ s : State, exec .resetRelease s = .next { s with pins := { s.pins with resetLow := false } })
  ∧ (∀ s : State, s.pins.resetLow = false → ∃ active data,
    exec .portReset s = .next { s with
      lif := Lif.cleared, trk := Trk.cleared, cmu := Cmu.cleared, tbu := Tbu.cleared, rqu := Rqu.cleared
      ntq := Ntq.cleared, xfu := Xfu.cleared
      stc := { s.stc with station := .halted, leave := .idle }
      lpt := { Lpt.cleared with
        irqNonEmpty := s.lpt.irqNonEmpty, irqOverflow := s.lpt.irqOverflow, cmd := 4, result := .ok, readData := data }
      pins := { s.pins with lineActive := active } })

/-- The configuration copy changes only by a CONFIG_WRITE in HALTED and by the pin reset, and the strap number only by
the pin reset (R140, R141). -/
def Obligations.ConfigurationAndStrapAreHeld : Prop :=
  ∀ (c : Instr) (s t : State), c.wellFormed = true → exec c s = .next t → (∀ sn, c ≠ .pinReset sn) →
    t.stc.strap = s.stc.strap
      ∧ ((∀ w, c ≠ .configWrite w) ∨ s.stc.station ≠ .halted → t.stc.config = s.stc.config)

/-! ### The group line (chapter 6) -/

/-- ACTIVITY_BEGINS and ACTIVITY_STOPS (R88, R104; which bits a stop brings and what a stop while SENDING does are the
model's choice, log 7, and so are the item's end as a value of the model's own clock, log 2, and what an event does that
cannot arise, log 3). -/
def Obligations.ActivityMovesTheReceiver : Prop :=
  ∀ s : State, s.pins.resetLow = false →
    (s.lif.receiver = .quiet →
      exec .activityBegins s = .next { s with
        lif := { s.lif with receiver := .active, item := LineItem.blank }
        trk := { s.trk with skipTimer := none, window := none }
        pins := { s.pins with lineActive := true } })
    ∧ (s.lif.receiver = .trailing →
      exec .activityBegins s = .next { s with
        lif := { s.lif with receiver := .active, item := { s.lif.item with endAt := none } }
        pins := { s.pins with lineActive := true } })
    ∧ (s.lif.receiver = .off ∨ s.lif.receiver = .active →
      exec .activityBegins s = .next { s with pins := { s.pins with lineActive := true } })
    ∧ (∀ bits, s.lif.transmitter = .idle → s.lif.receiver = .active →
      exec (.activityStops bits) s = .next { s with
        lif := { s.lif with
          receiver := .trailing
          item := { s.lif.item with
            bits := (s.lif.item.bits ++ bits).take 5128
            tooLong := s.lif.item.tooLong || decide (5128 < (s.lif.item.bits ++ bits).length)
            endAt := some s.clock } }
        pins := { s.pins with lineActive := false } })
    ∧ (∀ bits, s.lif.transmitter = .idle → s.lif.receiver ≠ .active →
      exec (.activityStops bits) s = .next { s with pins := { s.pins with lineActive := false } })
    ∧ (∀ bits, s.lif.transmitter = .sending → exec (.activityStops bits) s = .next s)

/-- TRANSMISSION_END and LOOPBACK_MISMATCH (R109, R110): TXE is released, and the item is the frame sent, or a fault. In
IDLE neither event arises (log 3). When the own bits join the item: log 7. -/
def Obligations.TransmitterEndsOrStops : Prop :=
  ∀ s : State, s.pins.resetLow = false →
    (∀ f, s.lif.transmitter = .sending → s.lif.sent = some f → ∃ t,
      exec .transmissionEnd s = .next t ∧ t.txeAsserted = false
      ∧ t = { s with lif := { s.lif with
          transmitter := .idle
          item := { s.lif.item with
            bits := (s.lif.item.bits ++ bitsOfBytes (encodeFrame s.profile f)).take 5128
            tooLong := s.lif.item.tooLong
              || decide (5128 < (s.lif.item.bits ++ bitsOfBytes (encodeFrame s.profile f)).length) } } })
    ∧ (s.lif.transmitter = .sending → ∃ t,
      exec .loopbackMismatch s = .next t ∧ t.txeAsserted = false ∧ t.heard = .fault
      ∧ t = { s with lif := { s.lif with transmitter := .idle, item := { s.lif.item with mismatch := true } } })
    ∧ (s.lif.transmitter = .idle → exec .transmissionEnd s = .next s ∧ exec .loopbackMismatch s = .next s)

/-- What LIF hears (R104, R106 to R117). A frame in range reads back: the bits of its encoding are classified, by every
station of its configuration, as the frame itself. An item that fails one of the nine checks is no frame: a fault, which
check 4 reports as a profile mismatch with the profile received, and check 9 as a duplicate sender. With checks 1 to 4
right, the item is the frame in range that its bytes carry in every field that is read, kind, flags, length, header, entries
and items; and where they carry no frame in range, so that one of checks 5 to 8 fails, a fault. That the spare bits are not
read is DEDUCED (log 19). An item that LIF did not hold whole, or that disagreed with the frame sent, is a fault. -/
def Obligations.EncodedFramesReadBack : Prop :=
  (∀ (profile : Byte) (n number : Nat) (own : Bool) (f : Frame), n ≤ 16 → f.wf n = true →
    (own = true ∨ f.sender ≠ number) →
    classify profile n number own (bitsOfBytes (encodeFrame profile f)) = Heard.ofFrame (f.sealed profile))
  ∧ (∀ (profile : Byte) (n number : Nat) (own : Bool) (bits : List Bool), bits.length % 8 ≠ 0 →
    classify profile n number own bits = .fault)
  ∧ (∀ (profile : Byte) (n number : Nat) (own : Bool) (bytes : List Byte),
    (¬ CarriesCheck bytes → classify profile n number own (bitsOfBytes bytes) = .fault)
    ∧ (CarriesCheck bytes → bytes.getD 2 0 ≠ profile →
      classify profile n number own (bitsOfBytes bytes) = .profile (bytes.getD 2 0)))
  ∧ (∀ (profile : Byte) (n : Nat) (bytes : List Byte), CarriesCheck bytes → bytes.getD 2 0 = profile →
    (∀ f : Frame, f.wf n = true → CarriedBy bytes f → ∀ number own,
      classify profile n number own (bitsOfBytes bytes)
        = if f.sender = number ∧ own = false then .duplicate else Heard.ofFrame f)
    ∧ ((∀ f : Frame, f.wf n = true → ¬ CarriedBy bytes f) → ∀ number own,
      classify profile n number own (bitsOfBytes bytes) = .fault))
  ∧ (∀ s : State,
    (s.lif.item.missedStart = true ∨ s.lif.item.tooLong = true ∨ s.lif.item.mismatch = true → s.heard = .fault)
    ∧ (∀ profile, s.lif.item.missedStart = false → s.lif.item.tooLong = false → s.lif.item.mismatch = false →
      s.lif.profile = some profile →
      s.heard = classify profile s.groupSize s.number s.lif.item.own s.lif.item.bits))

/-! ### Turns (chapter 5) -/

/-- SKIP_POINT (R91, R92).
The moment is the command's and the reference point the model's clock (log 2); with the timer stopped the event cannot
arise (log 3). -/
def Obligations.SkipPointPassesTheTurn : Prop :=
  ∀ s : State, s.pins.resetLow = false →
    (∀ h k, s.stc.station ≠ .halted → s.stc.station ≠ .founding → (s.stc.station = .listening → s.trk.aligned = true) →
      s.trk.skipTimer = some k → s.trk.holder = some h →
      exec .skipPoint s = .next { s with
        trk := { passedTrk s s.trk h with reference := some s.clock, skipTimer := some 0 }
        xfu := { s.xfu with
          stall := if (s.xfu.phase = .awaiting ∨ s.xfu.phase = .gathering) ∧ ¬ h + 1 < s.groupSize
            then min (s.xfu.stall + 1) 3
            else if s.xfu.phase = .awaiting ∨ s.xfu.phase = .gathering then min s.xfu.stall 3 else s.xfu.stall
          plan := none } })
    ∧ (s.trk.skipTimer = none → exec .skipPoint s = .next s)

/-- LISTEN_WINDOW_EXPIRY (R99, R100, R145): STATE FOUNDING and the FOUND at once. That the station's own activity stops
the timers and is an item of its own is read from R88 and R105 (log 6). The moment is the command's (log 2). -/
def Obligations.ListenWindowExpiryFoundsAGroup : Prop :=
  ∀ (s : State) (k : Nat), s.pins.resetLow = false → s.stc.station = .listening → s.trk.aligned = false →
    s.trk.window = some k → s.lif.receiver = .quiet → ∃ f : StreamFrame,
      exec .listenWindowExpiry s = .next { s with
        lif := startedLif s.lif (.stream f)
        trk := startedTrk s.trk
        stc := { s.stc with station := .founding }
        ntq := s.ntq.offer (stateNote .founding .founding none s.trk.rotation)
        pins := { s.pins with lineActive := true } }
      ∧ f = { kind := .found, sender := s.number, rotation := 0, moreFollows := false, echo := none, streamCheck := none,
              wanted := 0, ops := [], check := f.check }
      ∧ f.check = frameCheck s.profile (.stream f)

/-- ALIGNMENT_LOSS (R98, R99): at a lone-turn count of 2N the flag is cleared in every state but MEMBER, LEAVING and
HALTED; in LISTENING the window starts and the tracker holds no turn. MEMBER and LEAVING keep the flag.
The loss is a step of its own (log 10), and follows whenever the count stands at 2N, reached in this state or before it in
MEMBER or LEAVING (log 32); what LISTENING then holds: log 25; MEMBER and LEAVING: log 3. -/
def Obligations.LoneStationLosesAlignment : Prop :=
  ∀ s : State, s.pins.resetLow = false →
    (s.trk.aligned = true → 2 * s.groupSize ≤ s.trk.lone →
      (s.stc.station = .founding ∨ s.stc.station = .joining ∨ s.stc.station = .loading ∨ s.stc.station = .detached →
        exec .alignmentLoss s = .next { s with trk := { s.trk with aligned := false } })
      ∧ (s.stc.station = .listening → ∃ t, exec .alignmentLoss s = .next t
        ∧ t = { s with trk := { s.trk with
            aligned := false, holder := none, window := some 0, phase := t.trk.phase } }))
    ∧ (s.stc.station = .member ∨ s.stc.station = .leaving → exec .alignmentLoss s = .next s)

/-! ### What a station sends -/

/-- At the start of a frame with the line not QUIET LIF yields, and a state that sends nothing sends nothing: the station
is as it was (R109, R144, R162). -/
def Obligations.AYieldedOrSilentTurnTakesNothing : Prop :=
  ∀ s : State,
    (s.lif.receiver ≠ .quiet → exec .frameStart s = .next s)
    ∧ (s.trk.phase = .waiting →
      (s.stc.station = .halted ∨ s.stc.station = .founding ∨ s.stc.station = .detached
        ∨ (s.stc.station = .listening ∧ s.trk.aligned = false)
        ∨ (s.stc.station = .joining ∧ s.xfu.joinMark ≠ none)) →
      exec .frameStart s = .next s)

/-- The MEMBER frame of a MEMBER station (R77, R135, R161): with the own mark none up to 8 requests move from the head of
the queue to the in-flight list and travel; with the mark set none do, and the queue stays (the hold-back rule).
The start of the own activity: log 6; the in-flight list is empty in a run (log 3). -/
def Obligations.MemberFrameCarriesUpToEightRequests : Prop :=
  ∀ s : State, OwnTurnStarts s → s.stc.station = .member →
    (s.cmu.ownMark = none → s.rqu.outgoing ≠ [] →
      exec .frameStart s = .next { s with
        lif := startedLif s.lif (.stream (replicaFrame s .member (s.rqu.outgoing.take 8)))
        trk := startedTrk s.trk
        rqu := { s.rqu with
          outgoing := s.rqu.outgoing.drop 8, inflight := s.rqu.inflight ++ s.rqu.outgoing.take 8
          carrier := some ⟨s.trk.rotation, s.number⟩ }
        xfu := { s.xfu with plan := donorPlan s.xfu }
        pins := { s.pins with lineActive := true } })
    ∧ (s.cmu.ownMark ≠ none ∨ s.rqu.outgoing = [] →
      exec .frameStart s = .next { s with
        lif := startedLif s.lif (.stream (replicaFrame s .member []))
        trk := startedTrk s.trk
        xfu := { s.xfu with plan := donorPlan s.xfu }
        pins := { s.pins with lineActive := true } })

/-- The frame of a LEAVING station (R150): LEAVE when it drains and nothing is in flight, with the leave phase SENT, and a
MEMBER frame without operations otherwise. The start of the own activity: log 6. -/
def Obligations.LeavingStationSendsLeaveWhenDrained : Prop :=
  ∀ s : State, OwnTurnStarts s → s.stc.station = .leaving →
    (s.stc.leave = .draining → s.rqu.inflight = [] →
      exec .frameStart s = .next { s with
        lif := startedLif s.lif (.stream (replicaFrame s .leave []))
        trk := startedTrk s.trk
        xfu := { s.xfu with plan := donorPlan s.xfu }
        stc := { s.stc with leave := .sent }
        pins := { s.pins with lineActive := true } })
    ∧ (s.stc.leave ≠ .draining ∨ s.rqu.inflight ≠ [] →
      exec .frameStart s = .next { s with
        lif := startedLif s.lif (.stream (replicaFrame s .member []))
        trk := startedTrk s.trk
        xfu := { s.xfu with plan := donorPlan s.xfu }
        pins := { s.pins with lineActive := true } })

/-- The start of a JOIN (R120, R147), from LISTENING with the flag set, with its STATE record, and again from JOINING
without a join mark. The start of the own activity: log 6. -/
def Obligations.JoinStartsTheAttempt : Prop :=
  ∀ s : State, OwnTurnStarts s →
    (s.stc.station = .listening → s.trk.aligned = true →
      exec .frameStart s = .next { s with
        lif := startedLif s.lif (.stream (joinerFrame s .join 0))
        trk := startedTrk s.trk
        xfu := { s.xfu with
          phase := .awaiting, joinMark := some ⟨⟨s.trk.rotation, s.number⟩, none⟩, stall := 0, catchup := [] }
        stc := { s.stc with station := .joining }
        ntq := s.ntq.offer (stateNote .joining .joinSent none s.trk.rotation)
        pins := { s.pins with lineActive := true } })
    ∧ (s.stc.station = .joining → s.xfu.joinMark = none →
      exec .frameStart s = .next { s with
        lif := startedLif s.lif (.stream (joinerFrame s .join 0))
        trk := startedTrk s.trk
        xfu := { s.xfu with
          phase := .awaiting, joinMark := some ⟨⟨s.trk.rotation, s.number⟩, none⟩, stall := 0, catchup := [] }
        pins := { s.pins with lineActive := true } })

/-- The frames of a LOADING station (R77, R126, R129, R144): LOADING with the wanted index in GATHERING and REPLAYING,
READY in CONFIRMING. The start of the own activity: log 6. -/
def Obligations.LoadingStationAsksThenReportsReady : Prop :=
  ∀ s : State, OwnTurnStarts s → s.stc.station = .loading →
    (s.xfu.phase = .gathering ∨ s.xfu.phase = .replaying →
      exec .frameStart s = .next { s with
        lif := startedLif s.lif (.stream (joinerFrame s .loading s.xfu.wanted))
        trk := startedTrk s.trk
        pins := { s.pins with lineActive := true } })
    ∧ (s.xfu.phase = .confirming →
      exec .frameStart s = .next { s with
        lif := startedLif s.lif (.stream (replicaFrame s .ready []))
        trk := startedTrk s.trk
        xfu := { s.xfu with plan := donorPlan s.xfu }
        pins := { s.pins with lineActive := true } })

/-- The next transfer frame of a serving turn (R135, R136): four items from the index the plan stands at, more follows
clear in the last of the image and in the eighth of the turn, after which the plan is over.
The start of the own activity: log 6. -/
def Obligations.DonorSendsItsItemsFourToAFrame : Prop :=
  ∀ (s : State) (p : ServePlan), s.pins.resetLow = false → s.lif.transmitter = .idle → s.lif.receiver = .quiet →
    s.trk.phase = .transmitting → s.xfu.plan = some p → ∃ t : TransferFrame,
      exec .frameStart s = .next { s with
        lif := startedLif s.lif (.transfer t)
        trk := startedTrk s.trk
        xfu := { s.xfu with
          plan := if t.moreFollows then some { p with next := p.next + t.items.length, frames := p.frames + 1 } else none }
        pins := { s.pins with lineActive := true } }
      ∧ t = { sender := s.number
              moreFollows := decide (p.next + 4 < p.image.items.length) && decide (p.frames + 1 < 8)
              joiner := p.image.joiner, snapRotation := p.image.rotation, donorRotation := s.trk.rotation
              first := p.next, total := p.image.items.length, items := (p.image.items.drop p.next).take 4
              check := t.check }
      ∧ t.check = frameCheck s.profile (.transfer t)

/-! ### Items delivered: the stream (chapter 4) -/

/-- A fault of any kind heard by a MEMBER or LEAVING station, a profile mismatch and a duplicate sender among them, is a
hole, and passes the turn unless the own turn waits to start (R69, R88, R91, R104); a profile mismatch and a duplicate
sender are reported by a FOREIGN record, each once after an ENABLE (R107, R108). In LISTENING with the flag clear a fault
starts the window anew, and the tracker follows no turn (R99; log 25). A FOUND heard by a replica is no item of its stream
and no hole: it is reported once after an ENABLE, and the turn passes as for a fault (R82, R101). Outside the replica
states a fault only passes the turn, and so does a FOUND, but in LISTENING, where it is adopted and last heard (R67, R68,
R101). A valid frame heard in LISTENING or DETACHED is adopted, sets the aligned flag, and is last heard (R68, R89, R99).
The rotation of the FOREIGN records: log 9. The stall count at a wrap: log 8. That another station's frame ends an own turn
under way, and its serving plan: log 18. -/
def Obligations.FaultIsAHoleAndPassesTheTurn : Prop :=
  (∀ (s : State) (h : Heard), Delivers s h → s.xfu.phase = .idle →
    (h.isFault = true → s.stc.station = .member ∨ s.stc.station = .leaving →
      (∀ k, s.trk.phase ≠ .waiting → s.trk.holder = some k →
        exec .itemDelivery s = .next { s with
          lif := reportedLif s.lif h
          trk := passedTrk s { s.trk with reference := s.lif.item.endAt, skipTimer := some 16 } k
          cmu := { s.cmu with holes := min (s.cmu.holes + 1) 65535 }
          ntq := (foreignRecords s h).foldl Ntq.offer s.ntq
          xfu := { s.xfu with plan := none } })
      ∧ (s.trk.phase = .waiting →
        exec .itemDelivery s = .next { s with
          lif := reportedLif s.lif h
          trk := { s.trk with reference := s.lif.item.endAt, skipTimer := some 16 }
          cmu := { s.cmu with holes := min (s.cmu.holes + 1) 65535 }
          ntq := (foreignRecords s h).foldl Ntq.offer s.ntq }))
    ∧ (h.isFault = true → s.stc.station = .listening → s.trk.aligned = false →
      exec .itemDelivery s = .next { s with
        lif := reportedLif s.lif h
        trk := { s.trk with
          reference := s.lif.item.endAt, skipTimer := some 16, holder := none, phase := .idle, window := some 16 }
        ntq := (foreignRecords s h).foldl Ntq.offer s.ntq })
    ∧ (∀ f, h = .stream f → f.kind = .found → s.stc.station = .member ∨ s.stc.station = .leaving →
      let queue := if s.cmu.foundReported then s.ntq
        else s.ntq.offer (stationNote .foreign s.trk.rotation (.foreign (.found f.sender)))
      (∀ k, s.trk.phase ≠ .waiting → s.trk.holder = some k →
        exec .itemDelivery s = .next { s with
          lif := deliveredLif s.lif
          trk := passedTrk s { s.trk with reference := s.lif.item.endAt, skipTimer := some 16 } k
          cmu := { s.cmu with foundReported := true }
          ntq := queue
          xfu := { s.xfu with plan := none } })
      ∧ (s.trk.phase = .waiting →
        exec .itemDelivery s = .next { s with
          lif := deliveredLif s.lif
          trk := { s.trk with reference := s.lif.item.endAt, skipTimer := some 16 }
          cmu := { s.cmu with foundReported := true }
          ntq := queue })))
  ∧ (∀ (s : State) (sent : Option Frame) (h : Heard), DeliversFault s sent h →
    ((s.stc.station = .listening ∧ s.trk.aligned = true ∨ s.stc.station = .detached) ∧ s.xfu.phase = .idle)
      ∨ (s.stc.station = .joining ∧ s.xfu.phase = .awaiting
        ∧ (s.xfu.joinMark = none ∨ (sent = none ∧ ∃ id, s.xfu.joinMark = some ⟨id, none⟩))) →
    exec .itemDelivery s = .next (faulted s h))
  ∧ (∀ (s : State) (f : StreamFrame), Delivers s (.stream f) → f.kind = .found →
    (s.stc.station = .listening → s.xfu.phase = .idle → f.sender ≠ s.number →
      exec .itemDelivery s = .next (takenFrame s f))
    ∧ (s.stc.station = .detached ∧ s.xfu.phase = .idle ∨ s.stc.station = .joining ∧ s.xfu.phase = .awaiting
        ∨ s.stc.station = .loading ∧ s.xfu.phase = .gathering →
      exec .itemDelivery s = .next (faulted s (.stream f)))
    ∧ (s.stc.station = .loading ∧ (s.xfu.phase = .replaying ∨ s.xfu.phase = .confirming) →
      exec .itemDelivery s = .next { faulted s (.stream f) with
        cmu := { s.cmu with foundReported := true }
        ntq := if s.cmu.foundReported then s.ntq
          else s.ntq.offer (stationNote .foreign s.trk.rotation (.foreign (.found f.sender))) }))
  ∧ (∀ (s : State) (g : StreamFrame), DeliversStream s g → s.stc.station = .listening ∨ s.stc.station = .detached →
    s.xfu.phase = .idle → ∃ t,
      exec .itemDelivery s = .next t ∧ t = { takenFrame s g with xfu := servedXfu (adoptedXfu s g) g }
      ∧ t.trk.aligned = true)

/-- A failed loopback of the station's own frame is a hole too; a frame other than a MEMBER frame without operations takes
the own mark when it is none (R69, R78; of a transfer frame: log 15). A LEAVE that fails so returns the leave phase to
DRAINING (R150). The mark's bit for a hole: log 13. -/
def Obligations.OwnFaultTakesTheOwnMark : Prop :=
  (∀ (s : State) (f : StreamFrame) (h : Nat), DeliversOwn s (.stream f) .fault → s.stc.station = .member →
    s.xfu.phase = .idle → s.trk.phase = .transmitting → s.trk.holder = some h → ∃ t,
      exec .itemDelivery s = .next t
      ∧ t = { s with
          lif := deliveredLif s.lif
          trk := passedTrk s { s.trk with reference := s.lif.item.endAt, skipTimer := some 16 } h
          cmu := { s.cmu with holes := min (s.cmu.holes + 1) 65535, ownMark := t.cmu.ownMark }
          xfu := { s.xfu with plan := none } }
      ∧ (s.cmu.ownMark ≠ none → t.cmu.ownMark = s.cmu.ownMark)
      ∧ (s.cmu.ownMark = none → f.kind = .member → f.ops = [] → t.cmu.ownMark = none)
      ∧ (s.cmu.ownMark = none → f.kind ≠ .member ∨ f.ops ≠ [] → ∃ m, t.cmu.ownMark = some m
        ∧ m.id = ⟨f.rotation, f.sender⟩ ∧ m.kind = .stream f.kind))
  ∧ (∀ (s : State) (f : Frame) (h : Heard), DeliversFault s (some f) h →
    s.stc.station = .member ∨ s.stc.station = .leaving → s.xfu.phase = .idle →
    exec .itemDelivery s = .next { faulted s h with
      cmu := holedCmu s.cmu (some (sentItem f))
      stc := { s.stc with
        leave := if s.stc.station = .leaving ∧ (sentItem f).kind = .stream .leave then .draining else s.stc.leave } })

/-- A frame whose echo names P commits P at a MEMBER or LEAVING station (R15, R70, R75, R76, R81): P's check is folded
into C, P is L, its application is made, the records that name the station are written, and G is the new P. G is another
station's, or the station's own heard valid, which takes the own mark unless it is a MEMBER frame without operations (R75,
R78). As a donor the station takes the image of a JOIN that names it (R53, R133), releases its image when the JOINING
entry no longer names it (R138), and reads its joiner's LOADING and READY frames (R134). P leaves the station's own entry
as it was and brings no requests of its own: it is another station's, or an own MEMBER frame without operations. The
tracker adopts G, and passes the turn unless more follows (R89, R91). That another station's frame ends an own turn under
way, and its serving plan: log 18; the mark's bit for a hole: log 13. -/
def Obligations.ConfirmingEchoCommitsThePendingFrame : Prop :=
  ∀ (s : State) (p g : StreamFrame), DeliversStream s g → s.stc.station = .member ∨ s.stc.station = .leaving →
    s.xfu.phase = .idle → Confirms s.cmu p g → s.cmu.ownMark = none → p.sender ≠ s.number ∨ (p.kind = .member ∧ p.ops = []) →
    ((s.tbu.entry s.number).isMember = true → ((boundedTable s p).tbu.entry s.number).isMember = true) →
    exec .itemDelivery s = .next { s with
      lif := deliveredLif s.lif
      trk := adoptedTrk s g
      cmu := committedBy s p g
      tbu := (application s p).tbu
      ntq := (recordsFor s (application s p).out).foldl Ntq.offer s.ntq
      xfu := servedXfu (donorAfter s p (adoptedXfu s g)) g }

/-- What a committed MEMBER frame does in the table (R22, R23, R24): a MEMBER sender's last seen becomes the frame's
rotation, and its operations are applied in frame order, each on what the one before it left; of another sender none is
applied. And the commit of the station's own MEMBER frame ends its requests with the outcomes TBU wrote, or with ABORTED of
the frame's rotation when they were discarded (R25, R79, R164). The commit of another own frame, a FOUND (R58, R83), LOADING
or READY among them, ends no request. The confirming frame is another station's, or the next of its own (R75). The mark's
bit for a hole is the model's (log 13). That another station's frame ends an own turn under way, and its serving plan:
log 18. -/
def Obligations.CommittedOwnFrameEndsItsRequests : Prop :=
  (∀ (n : Nat) (f : StreamFrame) (a : App), f.kind = .member →
    ((a.tbu.entry f.sender).isMember = false → frameEffect n f a = a)
    ∧ ((a.tbu.entry f.sender).isMember = true →
      frameEffect n f a = f.ops.foldl (fun b q => match q.kind, q.mode with
          | .acquire, some m => b.acquire f.sender f.rotation q m
          | .acquire, none => b
          | .release, _ => b.release f.sender f.rotation q
          | .renew, _ => b.renew f.sender f.rotation q
          | .withdraw, _ => b.withdraw f.sender f.rotation q
          | .downgrade, _ => b.downgrade f.sender f.rotation q)
        { a with tbu := { a.tbu with roster := a.tbu.roster.setIfInBounds f.sender (.member f.rotation) } }))
  ∧ (∀ (s : State) (p g : StreamFrame), DeliversStream s g → s.stc.station = .member ∨ s.stc.station = .leaving →
    s.xfu.phase = .idle → Confirms s.cmu p g → p.sender = s.number →
    s.cmu.ownMark = some ⟨⟨p.rotation, p.sender⟩, .stream p.kind, false⟩ →
    ((s.tbu.entry s.number).isMember = true → ((boundedTable s p).tbu.entry s.number).isMember = true) →
    (p.kind ≠ .member → p.kind ≠ .leave → s.rqu.carrier ≠ some ⟨p.rotation, p.sender⟩ →
      exec .itemDelivery s = .next { s with
        lif := deliveredLif s.lif
        trk := adoptedTrk s g
        cmu := committedBy s p g
        tbu := (application s p).tbu
        ntq := (recordsFor s (application s p).out).foldl Ntq.offer s.ntq
        xfu := servedXfu (donorAfter s p (adoptedXfu s g)) g })
    ∧ (p.kind = .member → s.rqu.carrier = some ⟨p.rotation, p.sender⟩ → s.rqu.inflight.length = p.ops.length →
      ((boundedTable s p).tbu.entry s.number).isMember = false →
      exec .itemDelivery s = .next { s with
        lif := deliveredLif s.lif
        trk := adoptedTrk s g
        cmu := committedBy s p g
        tbu := (boundedTable s p).tbu
        ntq := (recordsFor s (boundedTable s p).out ++ s.rqu.inflight.map (requestNote .aborted p.rotation)).foldl
          Ntq.offer s.ntq
        rqu := { s.rqu with
          inflight := [], carrier := none
          live := s.rqu.inflight.foldl (fun l q => l.erase q.tag) s.rqu.live }
        xfu := servedXfu (donorAfter s p (adoptedXfu s g)) g }))
  ∧ ∀ (s : State) (p g : StreamFrame), DeliversStream s g → s.stc.station = .member ∨ s.stc.station = .leaving →
    s.xfu.phase = .idle → Confirms s.cmu p g → p.kind = .member → p.sender = s.number →
    s.cmu.ownMark = some ⟨⟨p.rotation, p.sender⟩, .stream .member, false⟩ →
    s.rqu.carrier = some ⟨p.rotation, p.sender⟩ → s.rqu.inflight.length = p.ops.length →
    ((boundedTable s p).tbu.entry s.number).isMember = true →
    exec .itemDelivery s = .next { s with
      lif := deliveredLif s.lif
      trk := adoptedTrk s g
      cmu := committedBy s p g
      tbu := (application s p).tbu
      ntq := (recordsFor s (application s p).out).foldl Ntq.offer s.ntq
      rqu := { s.rqu with
        inflight := [], carrier := none
        live := s.rqu.inflight.foldl (fun l q => l.erase q.tag) s.rqu.live }
      xfu := servedXfu (donorAfter s p (adoptedXfu s g)) g }

/-- The station's own MEMBER frame is voided by a frame whose echo names L, which voids P and the holes (R71, R75), or, an
own hole, by the commit of P, behind which it stood (R70, R79). Its requests return to the head of the queue in MEMBER
(R165), and end with ABORTED at once in LEAVING (R149), after the records of a commit's application. The void of another
own frame, or of none, returns no request; a pending LEAVE's returns the leave phase to DRAINING (R150; of a LEAVE that was
an own hole: log 16), and a founder's FOUND's takes the station to LISTENING, ABSENT, with its queue aborted and its stream
state and table cleared (R146; in LEAVING: log 17). The rotation of the ABORTED records, and of that STATE record: log 8;
the mark's bit for a hole: log 13. That another station's frame ends an own turn under way, and its serving plan: log 18. -/
def Obligations.VoidedOwnFrameReturnsItsRequests : Prop :=
  (∀ (s : State) (g : StreamFrame), DeliversStream s g → s.stc.station = .member ∨ s.stc.station = .leaving →
    s.xfu.phase = .idle → Denies s.cmu g →
    (s.cmu.ownMark = none →
      exec .itemDelivery s = .next { s with
        lif := deliveredLif s.lif
        trk := adoptedTrk s g
        cmu := resolvedBy s s.cmu g
        xfu := servedXfu (adoptedXfu s g) g })
    ∧ (∀ m, s.cmu.ownMark = some m → s.rqu.carrier ≠ some m.id → m.kind ≠ .stream .found →
      exec .itemDelivery s = .next { s with
        lif := deliveredLif s.lif
        trk := adoptedTrk s g
        cmu := resolvedBy s s.cmu g
        xfu := servedXfu (adoptedXfu s g) g
        stc := { s.stc with
          leave := if s.stc.station = .leaving ∧ m.kind = .stream .leave ∧ m.hole = false then .draining
            else s.stc.leave } })
    ∧ (∀ m, s.cmu.ownMark = some m → s.rqu.carrier ≠ some m.id → m.kind = .stream .found →
      exec .itemDelivery s = .next { s with
        lif := deliveredLif s.lif
        trk := adoptedTrk s g
        cmu := { Cmu.cleared with
          lastHeard := some ⟨⟨g.rotation, g.sender⟩, g.check⟩, foundReported := s.cmu.foundReported }
        tbu := Tbu.cleared
        rqu := { s.rqu with
          outgoing := [], live := s.rqu.outgoing.foldl (fun l q => l.erase q.tag) s.rqu.live }
        xfu := { s.xfu with image := none, joinerWanted := 0, plan := none }
        stc := { s.stc with station := .listening, leave := .idle }
        ntq := (s.rqu.outgoing.map (requestNote .aborted (adoptedTrk s g).rotation)
          ++ [stateNote .listening .absent none (adoptedTrk s g).rotation]).foldl Ntq.offer s.ntq }))
  ∧ (∀ (s : State) (p g : StreamFrame) (m : OwnMark), DeliversStream s g →
    s.stc.station = .member ∨ s.stc.station = .leaving → s.xfu.phase = .idle → Confirms s.cmu p g →
    s.cmu.ownMark = some m → m.hole = true → m.kind ≠ .stream .found → s.rqu.carrier ≠ some m.id →
    p.sender ≠ s.number ∨ (p.kind = .member ∧ p.ops = []) →
    ((s.tbu.entry s.number).isMember = true → ((boundedTable s p).tbu.entry s.number).isMember = true) →
    exec .itemDelivery s = .next { s with
      lif := deliveredLif s.lif
      trk := adoptedTrk s g
      cmu := committedBy s p g
      tbu := (application s p).tbu
      ntq := (recordsFor s (application s p).out).foldl Ntq.offer s.ntq
      xfu := servedXfu (donorAfter s p (adoptedXfu s g)) g })
  ∧ ∀ (s : State) (g : StreamFrame) (m : OwnMark), DeliversStream s g → s.xfu.phase = .idle → s.cmu.ownMark = some m →
    m.kind = .stream .member → s.rqu.carrier = some m.id →
    let returned : Rqu := { s.rqu with outgoing := s.rqu.inflight ++ s.rqu.outgoing, inflight := [], carrier := none }
    let ended : Rqu := { s.rqu with
      outgoing := [], inflight := [], carrier := none
      live := s.rqu.inflight.foldl (fun l q => l.erase q.tag) s.rqu.live }
    let aborted := s.rqu.inflight.map (requestNote .aborted (adoptedTrk s g).rotation)
    (Denies s.cmu g →
      (s.stc.station = .member →
        exec .itemDelivery s = .next { s with
          lif := deliveredLif s.lif
          trk := adoptedTrk s g
          cmu := resolvedBy s s.cmu g
          rqu := returned
          xfu := servedXfu (adoptedXfu s g) g })
      ∧ (s.stc.station = .leaving → s.rqu.outgoing = [] →
        exec .itemDelivery s = .next { s with
          lif := deliveredLif s.lif
          trk := adoptedTrk s g
          cmu := resolvedBy s s.cmu g
          rqu := ended
          ntq := aborted.foldl Ntq.offer s.ntq
          xfu := servedXfu (adoptedXfu s g) g }))
    ∧ (∀ p, Confirms s.cmu p g → m.hole = true → p.sender ≠ s.number ∨ (p.kind = .member ∧ p.ops = []) →
      ((s.tbu.entry s.number).isMember = true → ((boundedTable s p).tbu.entry s.number).isMember = true) →
      (s.stc.station = .member →
        exec .itemDelivery s = .next { s with
          lif := deliveredLif s.lif
          trk := adoptedTrk s g
          cmu := committedBy s p g
          tbu := (application s p).tbu
          rqu := returned
          ntq := (recordsFor s (application s p).out).foldl Ntq.offer s.ntq
          xfu := servedXfu (donorAfter s p (adoptedXfu s g)) g })
      ∧ (s.stc.station = .leaving → s.rqu.outgoing = [] →
        exec .itemDelivery s = .next { s with
          lif := deliveredLif s.lif
          trk := adoptedTrk s g
          cmu := committedBy s p g
          tbu := (application s p).tbu
          rqu := ended
          ntq := (recordsFor s (application s p).out ++ aborted).foldl Ntq.offer s.ntq
          xfu := servedXfu (donorAfter s p (adoptedXfu s g)) g }))

/-- A discordant frame, by an unknown echo with no hole pending, or by another stream check than the resolution would give
C, holes or none, is ignored and counted, the second one of the same sender not again (R72, R73, R74). A count of 2 is
never stored (log 27). That another station's frame ends an own turn under way, and its serving plan: log 18. -/
def Obligations.DiscordantFrameIsIgnoredAndCounted : Prop :=
  ∀ (s : State) (g : StreamFrame), DeliversStream s g → s.stc.station = .member ∨ s.stc.station = .leaving →
    s.xfu.phase = .idle → IsDiscordant s.cmu g →
    s.cmu.discordance = 0 ∨ (s.cmu.discordance = 1 ∧ s.cmu.discordSender = some g.sender) →
    exec .itemDelivery s = .next { s with
      lif := deliveredLif s.lif
      trk := adoptedTrk s g
      cmu := { s.cmu with
        discordance := 1, discordSender := some g.sender
        lastHeard := some ⟨⟨g.rotation, g.sender⟩, g.check⟩ }
      xfu := servedXfu (adoptedXfu s g) g }

/-- A MEMBER or LEAVING station is diverged by an unknown echo with holes pending, cause MISSED, or by a discordant frame,
by echo or by stream check, of a second sender, cause DISCORDANT (R72, R73, R74, R84, R152): DIVERGED, the ABORTED records
and STATE are written, the stream state, table and donor side are cleared, and the tracker and last heard are kept.
The rotation of the ABORTED and STATE records: log 8. That another station's frame ends an own turn under way: log 18. -/
def Obligations.DivergenceReturnsToListening : Prop :=
  ∀ (s : State) (g : StreamFrame) (cause : DivergeCause), DeliversStream s g →
    s.stc.station = .member ∨ s.stc.station = .leaving → s.xfu.phase = .idle →
    (cause = .missed ∧ NamesUnknown s.cmu g ∧ s.cmu.holes ≠ 0)
      ∨ (cause = .discordant ∧ IsDiscordant s.cmu g ∧ s.cmu.discordance = 1 ∧ s.cmu.discordSender ≠ some g.sender) →
    exec .itemDelivery s = .next { s with
      lif := deliveredLif s.lif
      trk := adoptedTrk s g
      cmu := { Cmu.cleared with
        lastHeard := some ⟨⟨g.rotation, g.sender⟩, g.check⟩, foundReported := s.cmu.foundReported }
      tbu := Tbu.cleared
      rqu := { outgoing := [], inflight := [], carrier := none
               live := (s.rqu.inflight ++ s.rqu.outgoing).foldl (fun l q => l.erase q.tag) s.rqu.live }
      xfu := { s.xfu with image := none, joinerWanted := 0, plan := none }
      stc := { s.stc with station := .listening, leave := .idle }
      ntq := (stationNote .diverged g.rotation (.cause cause)
        :: (s.rqu.inflight ++ s.rqu.outgoing).map (requestNote .aborted (adoptedTrk s g).rotation)
        ++ [stateNote .listening .diverged none (adoptedTrk s g).rotation]).foldl Ntq.offer s.ntq }

/-- The loopback of the FOUND decides the founding attempt (R83, R100, R145): valid, the station is MEMBER with the FOUND
as P of a new stream; a fault, it is LISTENING again, with the window restarted from the fault's end, 16 bit times of quiet
already counted (R99; log 25). The STATE record carries the tracker's rotation after the pass of the turn (log 8). The
mark's bit for a hole: log 13. -/
def Obligations.FoundLoopbackDecidesTheAttempt : Prop :=
  ∀ (s : State) (f g : StreamFrame), s.stc.station = .founding → s.xfu.phase = .idle →
    (DeliversOwn s (.stream f) (.stream g) → g.kind = .found → g.sender = s.number → g.moreFollows = false → ∃ t,
      exec .itemDelivery s = .next t
      ∧ t = { s with
          lif := deliveredLif s.lif
          trk := passedTrk s { s.trk with
            reference := s.lif.item.endAt, skipTimer := some 16, rotation := g.rotation, aligned := true, window := none }
            s.number
          cmu := { last := none, check := 0, waiting := some g, holes := 0, discordance := 0, discordSender := none
                   ownMark := some ⟨⟨g.rotation, g.sender⟩, .stream .found, false⟩
                   lastHeard := some ⟨⟨g.rotation, g.sender⟩, g.check⟩, foundReported := s.cmu.foundReported }
          stc := { s.stc with station := .member }
          ntq := s.ntq.offer (stateNote .member .founded none t.trk.rotation)
          xfu := { s.xfu with plan := none } })
    ∧ (DeliversOwn s (.stream f) .fault → ∃ t,
      exec .itemDelivery s = .next t
      ∧ t.stc = { s.stc with station := .listening } ∧ t.lif = deliveredLif s.lif ∧ t.cmu = s.cmu ∧ t.tbu = s.tbu
      ∧ t.rqu = s.rqu ∧ t.xfu = s.xfu ∧ t.lpt = s.lpt ∧ t.pins = s.pins
      ∧ t.ntq = s.ntq.offer (stateNote .listening .collided none s.trk.rotation)
      ∧ t.trk.rotation = s.trk.rotation ∧ t.trk.aligned = s.trk.aligned ∧ t.trk.holder = none ∧ t.trk.window = some 16)

/-- The commit of the station's own LEAVE (R56, R81, R151): its claims are LOST, the table and the stream state are
cleared, the image is released, and the station is DETACHED with STATE LEFT of the LEAVE's rotation. That another station's
frame ends an own turn under way: log 18. -/
def Obligations.OwnLeaveCommittedDetaches : Prop :=
  ∀ (s : State) (p g : StreamFrame), DeliversStream s g → s.stc.station = .leaving → s.xfu.phase = .idle →
    Confirms s.cmu p g → p.kind = .leave → p.sender = s.number →
    ((boundedTable s p).tbu.entry s.number).isMember = true →
    exec .itemDelivery s = .next { s with
      lif := deliveredLif s.lif
      trk := adoptedTrk s g
      cmu := { Cmu.cleared with
        lastHeard := some ⟨⟨g.rotation, g.sender⟩, g.check⟩, foundReported := s.cmu.foundReported }
      tbu := Tbu.cleared
      xfu := { s.xfu with image := none, joinerWanted := 0, plan := none }
      stc := { s.stc with station := .detached, leave := .idle }
      ntq := (recordsFor s (application s p).out ++ [stateNote .detached .left none p.rotation]).foldl Ntq.offer s.ntq }

/-- Self-absence (R23, R64, R81, R153, R164): when a committed frame's boundaries find the station's own entry absent, the
records of the application, the ABORTED records and STATE ABSENT with the frame's rotation are written, and the station is
LISTENING with its table, stream state and donor side cleared. When the frame is the station's own MEMBER frame its
operations are discarded, and their requests end with ABORTED of the frame's rotation before the others. The rotation of
the other ABORTED records: log 8; when self-absence is seen: log 27. That another station's frame ends an own turn under
way: log 18. -/
def Obligations.SelfAbsenceReturnsToListening : Prop :=
  ∀ (s : State) (p g : StreamFrame), DeliversStream s g → s.stc.station = .member ∨ s.stc.station = .leaving →
    s.xfu.phase = .idle → Confirms s.cmu p g →
    (s.tbu.entry s.number).isMember = true → ((boundedTable s p).tbu.entry s.number).isMember = false →
    let discarded := if p.kind = .member ∧ p.sender = s.number then p.ops.length else 0
    exec .itemDelivery s = .next { s with
      lif := deliveredLif s.lif
      trk := adoptedTrk s g
      cmu := { Cmu.cleared with
        lastHeard := some ⟨⟨g.rotation, g.sender⟩, g.check⟩, foundReported := s.cmu.foundReported }
      tbu := Tbu.cleared
      rqu := { outgoing := [], inflight := [], carrier := none
               live := (s.rqu.inflight ++ s.rqu.outgoing).foldl (fun l q => l.erase q.tag) s.rqu.live }
      xfu := { s.xfu with image := none, joinerWanted := 0, plan := none }
      stc := { s.stc with station := .listening, leave := .idle }
      ntq := (recordsFor s (application s p).out
        ++ (s.rqu.inflight.take discarded).map (requestNote .aborted p.rotation)
        ++ (s.rqu.inflight.drop discarded ++ s.rqu.outgoing).map (requestNote .aborted (adoptedTrk s g).rotation)
        ++ [stateNote .listening .absent none p.rotation]).foldl Ntq.offer s.ntq }

/-! ### Joining (chapter 7) -/

/-- The JOIN's own loopback completes its mark with the frame's check, or clears it when it is a fault; while the mark is
not complete nothing is queued (R120). Then a fault is queued as a hole marker, the station's own marked so (R121, R124),
and the first valid stream frame decides the JOIN's fate (R121, R123, R132): named, the station is LOADING in phase
GATHERING with the frame queued; not named, the JOIN is voided and is sent again, or the attempt fails with reason DIVERGED
when a hole is queued. With 48 entries held an item to be queued fails the attempt with reason CATCHUP_FULL (R124).
The rotation of the STATE record, and the stall count at a wrap: log 8; what an own hole marker carries: log 14; the window
of a failure unaligned: log 25. That another station's frame ends an own turn under way: log 18. -/
def Obligations.JoinFateFollowsTheFirstEcho : Prop :=
  (∀ (s : State) (id : FrameId), s.stc.station = .joining → s.xfu.phase = .awaiting → s.xfu.joinMark = some ⟨id, none⟩ →
    (∀ g, DeliversStream s g → g.sender = s.number →
      exec .itemDelivery s = .next { takenFrame s g with
        xfu := { adoptedXfu s g with joinMark := some ⟨id, some g.check⟩ } })
    ∧ (∀ g, DeliversStream s g → g.sender ≠ s.number → exec .itemDelivery s = .next (takenFrame s g))
    ∧ (∀ f h, DeliversFault s (some f) h →
      exec .itemDelivery s = .next { faulted s h with xfu := { faultXfu s with joinMark := none } }))
  ∧ (∀ (s : State) (g : StreamFrame), DeliversStream s g → s.stc.station = .joining → s.xfu.phase = .awaiting →
    s.xfu.joinMark = none → exec .itemDelivery s = .next (takenFrame s g))
  ∧ (∀ (s : State) (sent : Option Frame) (h : Heard) (join : FrameRef), DeliversFault s sent h →
    s.stc.station = .joining → s.xfu.phase = .awaiting → s.xfu.joinMark = some ⟨join.id, some join.check⟩ →
    (s.xfu.catchup.length < 48 →
      exec .itemDelivery s = .next { faulted s h with
        xfu := { faultXfu s with catchup := s.xfu.catchup ++ [.hole (sent.map sentItem)] } })
    ∧ (48 ≤ s.xfu.catchup.length →
      exec .itemDelivery s = .next (joinFailed (faulted s h) .catchupFull (faultTrk s).rotation)))
  ∧ (∀ (s : State) (g : StreamFrame) (join : FrameRef), DeliversStream s g → s.stc.station = .joining →
    s.xfu.phase = .awaiting → s.xfu.joinMark = some ⟨join.id, some join.check⟩ → g.echo = some join →
    48 ≤ s.xfu.catchup.length →
    exec .itemDelivery s = .next (joinFailed (takenFrame s g) .catchupFull (adoptedTrk s g).rotation))
  ∧ ∀ (s : State) (g : StreamFrame) (join : FrameRef), DeliversStream s g → s.stc.station = .joining →
    s.xfu.phase = .awaiting → s.xfu.joinMark = some ⟨join.id, some join.check⟩ →
    (g.echo = some join → s.xfu.catchup.length < 48 →
      exec .itemDelivery s = .next { s with
        lif := deliveredLif s.lif
        trk := adoptedTrk s g
        cmu := { s.cmu with lastHeard := some ⟨⟨g.rotation, g.sender⟩, g.check⟩ }
        xfu := { adoptedXfu s g with
          phase := .gathering, joinMark := none, snapshot := some join
          catchup := s.xfu.catchup ++ [.frame g (decide (g.sender = s.number))]
          map := Vector.replicate 65 none, total := none, wanted := 0, stall := 0 }
        stc := { s.stc with station := .loading }
        ntq := s.ntq.offer (stateNote .loading .loading none (adoptedTrk s g).rotation) })
    ∧ (g.echo ≠ some join → (∀ e ∈ s.xfu.catchup, e.isHole = false) →
      exec .itemDelivery s = .next { s with
        lif := deliveredLif s.lif
        trk := adoptedTrk s g
        cmu := { s.cmu with lastHeard := some ⟨⟨g.rotation, g.sender⟩, g.check⟩ }
        xfu := { adoptedXfu s g with joinMark := none, catchup := [] } })
    ∧ (g.echo ≠ some join → (∃ e ∈ s.xfu.catchup, e.isHole = true) →
      exec .itemDelivery s = .next { s with
        lif := deliveredLif s.lif
        trk := adoptedTrk s g
        cmu := { Cmu.cleared with
          lastHeard := some ⟨⟨g.rotation, g.sender⟩, g.check⟩, foundReported := s.cmu.foundReported }
        tbu := Tbu.cleared
        xfu := { adoptedXfu s g with
          phase := .idle, joinMark := none, catchup := [], snapshot := none, map := Vector.replicate 65 none
          total := none, wanted := 0, stall := 0 }
        stc := { s.stc with station := .listening, leave := .idle }
        ntq := s.ntq.offer (stateNote .listening .joinFailed (some .diverged) (adoptedTrk s g).rotation) })

/-- The catch-up queue of a gathering or replaying joiner (R124, R132): a stream frame other than a FOUND is appended, and
a fault as a hole marker, each marked as the station's own when it is; with 48 entries held the attempt fails with reason
CATCHUP_FULL. The rotation of the STATE record, and the stall count at a wrap: log 8; what an own hole marker carries:
log 14; the window of a failure unaligned: log 25. That another station's frame ends an own turn under way: log 18. -/
def Obligations.CatchupQueueKeepsFortyEightItems : Prop :=
  (∀ (s : State) (sent : Option Frame) (h : Heard), DeliversFault s sent h → s.stc.station = .loading →
    s.xfu.phase = .gathering ∨ s.xfu.phase = .replaying →
    (s.xfu.catchup.length < 48 →
      exec .itemDelivery s = .next { faulted s h with
        xfu := { faultXfu s with catchup := s.xfu.catchup ++ [.hole (sent.map sentItem)] } })
    ∧ (48 ≤ s.xfu.catchup.length →
      exec .itemDelivery s = .next (joinFailed (faulted s h) .catchupFull (faultTrk s).rotation)))
  ∧ ∀ (s : State) (g : StreamFrame), DeliversStream s g → s.stc.station = .loading →
    s.xfu.phase = .gathering ∨ s.xfu.phase = .replaying →
    (s.xfu.catchup.length < 48 →
      exec .itemDelivery s = .next { s with
        lif := deliveredLif s.lif
        trk := adoptedTrk s g
        cmu := { s.cmu with lastHeard := some ⟨⟨g.rotation, g.sender⟩, g.check⟩ }
        xfu := { adoptedXfu s g with
          catchup := s.xfu.catchup ++ [.frame g (decide (g.sender = s.number))] } })
    ∧ (48 ≤ s.xfu.catchup.length →
      exec .itemDelivery s = .next { s with
        lif := deliveredLif s.lif
        trk := adoptedTrk s g
        cmu := { Cmu.cleared with
          lastHeard := some ⟨⟨g.rotation, g.sender⟩, g.check⟩, foundReported := s.cmu.foundReported }
        tbu := Tbu.cleared
        xfu := { adoptedXfu s g with
          phase := .idle, joinMark := none, catchup := [], snapshot := none, map := Vector.replicate 65 none
          total := none, wanted := 0, stall := 0 }
        stc := { s.stc with station := .listening, leave := .idle }
        ntq := s.ntq.offer (stateNote .listening .joinFailed (some .catchupFull) (adoptedTrk s g).rotation) })

/-- A transfer frame heard in GATHERING (R18, R85, R125, R126, R127, R130). One of another snapshot, for another joiner, of
another total or of another JOIN stores nothing; one that matches is written into the map whole, the wanted index is the
lowest empty slot, and the stall count is 0 when it filled one. When the map is complete and its items form one image,
replay begins: the table is loaded, and the stream state taken from the roster item; a station whose own entry is not
JOINING in it is removed. When they do not form one image, gathering starts over. TRK adopts the frame in each case (R89),
and outside GATHERING that is all, for another station's frame and for a donor's own, whose plan goes on while its turn
does (R136). Replay with an empty queue ends in the same step: log 11. The rotation of the STATE record: log 8. That another
station's frame ends an own turn under way, and its serving plan: log 18. -/
def Obligations.TransferFrameIsStoredByItsJoiner : Prop :=
  (∀ (s : State) (t : TransferFrame),
    (Delivers s (.transfer t) ∧ t.sender ≠ s.number) ∨ (∃ f, DeliversOwn s f (.transfer t) ∧ t.sender = s.number) →
    s.stc.station ≠ .halted → s.stc.station ≠ .founding → s.xfu.phase ≠ .gathering →
    exec .itemDelivery s = .next { s with
      lif := deliveredLif s.lif
      trk := transferTrk s t
      xfu := { s.xfu with
        stall := stallAfter s t.sender t.donorRotation (transferPasses s t)
        plan := if t.sender = s.number ∧ transferPasses s t = false then s.xfu.plan else none } })
  ∧ ∀ (s : State) (t : TransferFrame), Delivers s (.transfer t) → t.sender ≠ s.number → s.stc.station = .loading →
    s.xfu.phase = .gathering →
    ((∀ snap, ¬ StoresTransfer s snap t) →
      exec .itemDelivery s = .next { s with
        lif := deliveredLif s.lif
        trk := transferTrk s t
        xfu := { s.xfu with
          stall := stallAfter s t.sender t.donorRotation (transferPasses s t), plan := none } })
    ∧ (∀ snap w, StoresTransfer s snap t → w < t.total → filledSlot s t w = none → (∀ i < w, filledSlot s t i ≠ none) →
      ∃ u, exec .itemDelivery s = .next u
        ∧ u = { s with
            lif := deliveredLif s.lif
            trk := transferTrk s t
            xfu := { s.xfu with
              map := u.xfu.map, total := some t.total, wanted := w, stall := storedStall s t, plan := none } }
        ∧ ∀ i, u.xfu.slot i = filledSlot s t i)
    ∧ (∀ snap ros recs, StoresTransfer s snap t → CompletesMap s t ros recs → ImageForm ros recs →
      ((rosterOf ros.entries)[s.number]?.getD .vacant).isJoining = true →
      exec .itemDelivery s = .next { s with
        lif := deliveredLif s.lif
        trk := transferTrk s t
        tbu := { records := recs, inUse := recs.length, free := 128 - (recs.flatMap ResRecord.claims).length
                 counts := Vector.ofFn (fun k => (recs.flatMap ResRecord.claims).countP (fun c => c.station == k.val))
                 roster := rosterOf ros.entries, lastApplied := some ros.lastApplied }
        cmu := { Cmu.cleared with
          last := some ros.last, check := ros.streamCheck, lastHeard := s.cmu.lastHeard
          foundReported := s.cmu.foundReported }
        xfu := { s.xfu with
          phase := if s.xfu.catchup = [] then .confirming else .replaying
          map := Vector.replicate 65 none, total := some t.total, wanted := t.total, stall := storedStall s t
          plan := none } })
    ∧ (∀ snap ros recs, StoresTransfer s snap t → CompletesMap s t ros recs → ImageForm ros recs →
      ((rosterOf ros.entries)[s.number]?.getD .vacant).isJoining = false →
      exec .itemDelivery s = .next { s with
        lif := deliveredLif s.lif
        trk := transferTrk s t
        cmu := { Cmu.cleared with lastHeard := s.cmu.lastHeard, foundReported := s.cmu.foundReported }
        tbu := Tbu.cleared
        xfu := { s.xfu with
          phase := .idle, joinMark := none, catchup := [], snapshot := none, map := Vector.replicate 65 none
          total := none, wanted := 0, stall := 0, plan := none }
        stc := { s.stc with station := .listening, leave := .idle }
        ntq := s.ntq.offer (stateNote .listening .joinFailed (some .removed) (transferTrk s t).rotation) })
    ∧ (∀ snap ros recs, StoresTransfer s snap t → CompletesMap s t ros recs → ¬ ImageForm ros recs →
      exec .itemDelivery s = .next { s with
        lif := deliveredLif s.lif
        trk := transferTrk s t
        xfu := { s.xfu with
          map := Vector.replicate 65 none, total := none, wanted := 0, stall := storedStall s t, plan := none } })

/-- A committed READY (R51, R55, R129). In the table: a JOINING sender's claims end, LOST for each in walk order, the grant
passes run on the records they leave, and the sender is MEMBER with last seen r; the READY of another sender is ignored. At
the station that sent it, in CONFIRMING: the joiner side is cleared and STATE MEMBER of the READY's rotation follows the
records of the application. The mark's bit for a hole is the model's (log 13). That another station's frame ends an own turn
under way: log 18. -/
def Obligations.CommittedReadyMakesTheJoinerAMember : Prop :=
  (∀ (n : Nat) (f : StreamFrame) (a : App), f.kind = .ready → frameEffect n f a = a.readyEffect f.sender f.rotation)
  ∧ (∀ (a : App) (j : Nat) (r : Word32), recordsOrdered a.tbu.records → a.touched = [] →
    let own := fun (x : ResRecord) => x.claims.filter (fun c => c.station == j)
    let rest := fun (x : ResRecord) =>
      ({ x with holders := x.holders.filter (fun c => c.station != j)
                waiters := x.waiters.filter (fun c => c.station != j) } : ResRecord)
    let lost := fun (x : ResRecord) (c : Claim) =>
      (⟨c.station, { kind := .lost, tag := some c.tag, resource := some x.resource, mode := some c.mode, rotation := r,
                     detail := .absent }⟩ : Outcome)
    let b := a.readyEffect j r
    ((a.tbu.entry j).isJoining = false → b = a)
    ∧ ((a.tbu.entry j).isJoining = true →
      b.tbu.roster = a.tbu.roster.setIfInBounds j (.member r) ∧ b.tbu.lastApplied = a.tbu.lastApplied
        ∧ b.tbu.records = a.tbu.records.filterMap (fun x => if own x = [] then some x
            else if ((rest x).passed r).isBare then none else some ((rest x).passed r))
        ∧ b.out = a.out ++ a.tbu.records.flatMap (fun x => (own x).map (lost x))
            ++ a.tbu.records.flatMap (fun x => if own x = [] then [] else ((rest x).grants r).map (grantNote r x.resource))
        ∧ (∀ x ∈ b.tbu.records, ∀ c ∈ x.claims, c.station ≠ j)))
  ∧ (∀ (s : State) (p g : StreamFrame), DeliversStream s g → s.stc.station = .loading → s.xfu.phase = .confirming →
    Confirms s.cmu p g → p.kind = .ready → p.sender = s.number →
    s.cmu.ownMark = some ⟨⟨p.rotation, p.sender⟩, .stream .ready, false⟩ → s.rqu.carrier = none →
    ((boundedTable s p).tbu.entry s.number).isJoining = true → ∃ t,
      exec .itemDelivery s = .next t
      ∧ t = { s with
          lif := deliveredLif s.lif
          trk := adoptedTrk s g
          cmu := committedBy s p g
          tbu := (application s p).tbu
          xfu := servedXfu { donorAfter s p (adoptedXfu s g) with
            phase := .idle, joinMark := none, catchup := [], snapshot := none, map := Vector.replicate 65 none
            total := none, wanted := 0, stall := 0 } g
          stc := { s.stc with station := .member }
          ntq := (recordsFor s (application s p).out ++ [stateNote .member .member none p.rotation]).foldl Ntq.offer
            s.ntq }
      ∧ t.tbu.entry s.number = .member p.rotation)

/-- REPLAY_ENTRY, and CONFIRMING (R67, R69 to R75, R85, R128, R130): the oldest entry leaves the queue and is resolved as
an item from LIF, and replay ends when the queue is empty (in the same step: log 11); in CONFIRMING the items come from LIF.
An entry or item is a hole, of the station's own or not; a frame that voids P, or commits it, and becomes P, with the own
mark when it is the station's own; or a discordant frame, which is counted. A second sender's discordance, and an unknown
echo with holes pending, fail the attempt with reason DIVERGED (R84; last heard: log 28), and an application that finds the
own entry not JOINING, unless by the commit of the own READY, with reason REMOVED (R65, R130); outside MEMBER and LEAVING
a station holds no image (R139). A count of 2 is never stored: log 27; the window of a failure unaligned: log 25; the
rotation of a STATE record, and the stall count: log 8; the own marks: log 13, 14. That another station's frame ends an own
turn under way: log 18. -/
def Obligations.ReplayResolvesTheOldestEntry : Prop :=
  (∀ (s v : State) (i : Instr) (own : Option OwnItem), HandsHole s v i own →
    exec i s = .next { v with cmu := holedCmu v.cmu own, xfu := replayedXfu v.xfu })
  ∧ (∀ (s v : State) (i : Instr) (g : StreamFrame) (own : Bool), Hands s v i g own → g.kind ≠ .found →
    (Denies v.cmu g → (∀ m, v.cmu.ownMark = some m → m.kind ≠ .stream .found ∧ v.rqu.carrier ≠ some m.id) →
      exec i s = .next { v with cmu := cleanedBy v.cmu g own, xfu := replayedXfu v.xfu })
    ∧ (∀ p, Confirms v.cmu p g →
      (∀ m, v.cmu.ownMark = some m → m.kind ≠ .stream .found ∧ v.rqu.carrier ≠ some m.id) →
      p.kind ≠ .member ∨ p.sender ≠ v.number →
      (((application v p).tbu.entry v.number).isJoining = true →
        exec i s = .next { v with
          cmu := { cleanedBy v.cmu g own with
            last := some ⟨⟨p.rotation, p.sender⟩, p.check⟩, check := crc (bytes32 v.cmu.check ++ bytes32 p.check) }
          tbu := (application v p).tbu
          ntq := (recordsFor v (application v p).out).foldl Ntq.offer v.ntq
          xfu := replayedXfu (donorAfter v p v.xfu) })
      ∧ (((application v p).tbu.entry v.number).isJoining = false →
        (((application v p).tbu.entry v.number).isMember = true → p.kind ≠ .ready ∨ p.sender ≠ v.number) →
        (donorAfter v p v.xfu).image = none →
        exec i s = .next (joinFailed { v with
          ntq := (recordsFor v (application v p).out).foldl Ntq.offer v.ntq
          xfu := donorAfter v p v.xfu } .removed p.rotation)))
    ∧ (IsDiscordant v.cmu g → v.cmu.discordance = 0 ∨ (v.cmu.discordance = 1 ∧ v.cmu.discordSender = some g.sender) →
      exec i s = .next { v with
        cmu := { v.cmu with discordance := 1, discordSender := some g.sender }, xfu := replayedXfu v.xfu })
    ∧ ((NamesUnknown v.cmu g ∧ v.cmu.holes ≠ 0)
        ∨ (IsDiscordant v.cmu g ∧ v.cmu.discordance = 1 ∧ v.cmu.discordSender ≠ some g.sender) →
      v.xfu.image = none → exec i s = .next (joinFailed v .diverged v.trk.rotation)))
  ∧ ∀ (s : State) (rest : List CatchEntry), s.pins.resetLow = false → s.stc.station = .loading → s.xfu.phase = .replaying →
    (s.xfu.catchup = .hole none :: rest →
      exec .replayEntry s = .next { s with
        xfu := { s.xfu with catchup := rest, phase := if rest = [] then .confirming else .replaying }
        cmu := { s.cmu with holes := min (s.cmu.holes + 1) 65535 } })
    ∧ (∀ g, s.xfu.catchup = .frame g false :: rest → Denies s.cmu g → s.cmu.ownMark = none →
      exec .replayEntry s = .next { s with
        xfu := { s.xfu with catchup := rest, phase := if rest = [] then .confirming else .replaying }
        cmu := { s.cmu with waiting := some g, holes := 0, discordance := 0, discordSender := none } })

/-- JOIN_STALL (R122, R132): with the stall count at 3 in AWAITING or GATHERING the attempt fails with reason STALL; with
the aligned flag set the tracker is kept. The failure is a step of its own (log 10); the window: log 25. -/
def Obligations.StalledJoinFails : Prop :=
  ∀ s : State, s.pins.resetLow = false → s.xfu.phase = .awaiting ∨ s.xfu.phase = .gathering → s.xfu.stall = 3 → ∃ t,
    exec .joinStall s = .next t
    ∧ t = { s with
        trk := t.trk
        cmu := { Cmu.cleared with lastHeard := s.cmu.lastHeard, foundReported := s.cmu.foundReported }
        tbu := Tbu.cleared
        xfu := { s.xfu with
          phase := .idle, joinMark := none, catchup := [], snapshot := none, map := Vector.replicate 65 none
          total := none, wanted := 0, stall := 0 }
        stc := { s.stc with station := .listening, leave := .idle }
        ntq := s.ntq.offer (stateNote .listening .joinFailed (some .stall) s.trk.rotation) }
    ∧ t.trk.rotation = s.trk.rotation ∧ t.trk.aligned = s.trk.aligned
    ∧ (s.trk.aligned = true → t.trk = { s.trk with window := none })
    ∧ (s.trk.aligned = false → t.trk.holder = none ∧ t.trk.window = some 0)

/-! ### The resource table (chapters 1 to 3) -/

/-- ACQUIRE by the first of the eight cases of R26, with the claims of R28 and R30 and the outcomes of R43. -/
def Obligations.AcquireTakesTheFirstMatchingCase : Prop :=
  ∀ (a : App) (s : Nat) (r : Word32) (q : Request) (m : Mode), q.kind = .acquire → q.mode = some m → s < 16 →
    let b := a.acquire s r q m
    let refused := fun why => b = { a with out := a.out ++ [opNote .refused s r q (some m) (.reason why)] }
    let holds := (a.tbu.held s q.resource).isSome
    let waits := (a.tbu.waitsOn s q.resource).isSome
    let absent := a.tbu.find q.resource = none
    let passes := holds = false ∧ waits = false ∧ a.tbu.count s < 32 ∧ a.tbu.free ≠ 0 ∧ (absent → a.tbu.inUse < 64)
    let created := b.tbu.free = a.tbu.free - 1 ∧ b.tbu.count s = a.tbu.count s + 1
      ∧ (∀ k, k ≠ s → b.tbu.count k = a.tbu.count k) ∧ b.tbu.roster = a.tbu.roster
      ∧ b.tbu.lastApplied = a.tbu.lastApplied ∧ b.touched = a.touched
      ∧ (∀ x, x ≠ q.resource → b.tbu.find x = a.tbu.find x)
    let expiry : Option Word32 := if q.lease = 0 then none else some (r + q.lease.setWidth 32)
    let limit : Option Word32 := if q.patience.toNat = 4095 then none else some (r + q.patience.setWidth 32)
    (holds = true → refused .alreadyHeld)
    ∧ (holds = false → waits = true → refused .alreadyWaiting)
    ∧ (holds = false → waits = false → 32 ≤ a.tbu.count s → refused .quota)
    ∧ (holds = false → waits = false → a.tbu.count s < 32 → a.tbu.free = 0 → refused .claimsFull)
    ∧ (absent → a.tbu.count s < 32 → a.tbu.free ≠ 0 → 64 ≤ a.tbu.inUse → refused .tableFull)
    ∧ (passes → absent →
      created ∧ b.tbu.inUse = a.tbu.inUse + 1
        ∧ b.tbu.find q.resource = some ⟨q.resource, [⟨s, m, q.tag, q.lease, expiry⟩], []⟩
        ∧ b.out = a.out ++ [opNote .granted s r q (some m) (.expiry expiry)])
    ∧ (∀ x, passes → a.tbu.find q.resource = some x → x.waiters = [] →
      (m = .shared ∧ ∀ c ∈ x.holders, c.mode ≠ .exclusive) ∨ (m = .exclusive ∧ x.holders = []) →
      created ∧ b.tbu.inUse = a.tbu.inUse
        ∧ b.tbu.find q.resource = some { x with holders := x.holders ++ [⟨s, m, q.tag, q.lease, expiry⟩] }
        ∧ b.out = a.out ++ [opNote .granted s r q (some m) (.expiry expiry)])
    ∧ (∀ x, passes → a.tbu.find q.resource = some x →
      x.waiters ≠ [] ∨ (m = .shared ∧ ∃ c ∈ x.holders, c.mode = .exclusive) ∨ (m = .exclusive ∧ x.holders ≠ []) →
      (q.patience = 0 → b = { a with out := a.out ++ [opNote .busy s r q (some m) .absent] })
      ∧ (q.patience ≠ 0 →
        created ∧ b.tbu.inUse = a.tbu.inUse
          ∧ b.tbu.find q.resource = some { x with waiters := x.waiters ++ [⟨s, m, q.tag, q.lease, limit⟩] }
          ∧ b.out = a.out ++ [opNote .queued s r q (some m) (.position (x.waiters.length + 1))]))

/-- RELEASE and WITHDRAW (R9, R32, R33, R36, R37): without a claim in the list concerned they are refused and change
nothing; otherwise the station's claim leaves its list, a grant pass runs on that record alone, its grants are reported
after the operation's own outcome, and a record left without claims is removed. -/
def Obligations.ReleaseAndWithdrawRemoveTheClaim : Prop :=
  ∀ (a : App) (s : Nat) (r : Word32) (q : Request), recordsOrdered a.tbu.records →
    (a.tbu.held s q.resource = none → q.kind = .release →
      a.release s r q = { a with out := a.out ++ [opNote .refused s r q none (.reason .notHeld)] })
    ∧ (a.tbu.waitsOn s q.resource = none → q.kind = .withdraw →
      a.withdraw s r q = { a with out := a.out ++ [opNote .refused s r q none (.reason .notWaiting)] })
    ∧ (∀ x c, a.tbu.find q.resource = some x → x.holding s = some c →
      let y : ResRecord := { x with holders := x.holders.filter (fun d => d.station != s) }
      let b := a.release s r q
      b.out = a.out ++ opNote .released s r q (some c.mode) .absent :: (y.grants r).map (grantNote r q.resource)
        ∧ b.tbu.find q.resource = (if (y.passed r).isBare then none else some (y.passed r))
        ∧ (∀ z, z ≠ q.resource → b.tbu.find z = a.tbu.find z) ∧ b.tbu.roster = a.tbu.roster
        ∧ b.tbu.lastApplied = a.tbu.lastApplied)
    ∧ (∀ x c, a.tbu.find q.resource = some x → x.waitingOf s = some c →
      let y : ResRecord := { x with waiters := x.waiters.filter (fun d => d.station != s) }
      let b := a.withdraw s r q
      b.out = a.out ++ opNote .withdrawn s r q (some c.mode) .absent :: (y.grants r).map (grantNote r q.resource)
        ∧ b.tbu.find q.resource = (if (y.passed r).isBare then none else some (y.passed r))
        ∧ (∀ z, z ≠ q.resource → b.tbu.find z = a.tbu.find z) ∧ b.tbu.roster = a.tbu.roster
        ∧ b.tbu.lastApplied = a.tbu.lastApplied)

/-- RENEW (R34, R35): without a held claim refused and nothing changed; otherwise the claim takes the request's lease,
with its expiry counted from the frame's rotation, in its place. -/
def Obligations.RenewReplacesTheLease : Prop :=
  ∀ (a : App) (s : Nat) (r : Word32) (q : Request),
    let expiry : Option Word32 := if q.lease = 0 then none else some (r + q.lease.setWidth 32)
    (a.tbu.held s q.resource = none → q.kind = .renew →
      a.renew s r q = { a with out := a.out ++ [opNote .refused s r q none (.reason .notHeld)] })
    ∧ (∀ (x : ResRecord) (before after : List Claim) (c : Claim), a.tbu.find q.resource = some x →
      x.holders = before ++ c :: after → c.station = s → (∀ d ∈ before ++ after, d.station ≠ s) →
      let b := a.renew s r q
      b.out = a.out ++ [opNote .renewed s r q (some c.mode) (.expiry expiry)]
        ∧ b.tbu.find q.resource = some { x with
            holders := before ++ { c with lease := q.lease, expiry := expiry } :: after }
        ∧ (∀ z, z ≠ q.resource → b.tbu.find z = a.tbu.find z)
        ∧ b.tbu = { a.tbu with records := b.tbu.records } ∧ b.touched = a.touched)

/-- DOWNGRADE (R38, R39): refused NOT_HELD or NOT_EXCLUSIVE with nothing changed; otherwise the only holder is SHARED,
keeping tag, lease and expiry, and a grant pass runs on that record alone. -/
def Obligations.DowngradeSharesTheClaim : Prop :=
  ∀ (a : App) (s : Nat) (r : Word32) (q : Request), q.kind = .downgrade → recordsOrdered a.tbu.records →
    (a.tbu.held s q.resource = none →
      a.downgrade s r q = { a with out := a.out ++ [opNote .refused s r q none (.reason .notHeld)] })
    ∧ (∀ c, a.tbu.held s q.resource = some c → c.mode = .shared →
      a.downgrade s r q = { a with out := a.out ++ [opNote .refused s r q none (.reason .notExclusive)] })
    ∧ (∀ x c, a.tbu.find q.resource = some x → x.holders = [c] → c.station = s → c.mode = .exclusive →
      let y : ResRecord := { x with holders := [{ c with mode := .shared }] }
      let b := a.downgrade s r q
      b.out = a.out ++ opNote .downgraded s r q (some .shared) .absent :: (y.grants r).map (grantNote r q.resource)
        ∧ b.tbu.find q.resource = some (y.passed r)
        ∧ (∀ z, z ≠ q.resource → b.tbu.find z = a.tbu.find z) ∧ b.tbu.free = a.tbu.free
        ∧ b.tbu.counts = a.tbu.counts ∧ b.tbu.roster = a.tbu.roster ∧ b.tbu.lastApplied = a.tbu.lastApplied)

/-- A grant pass grants a run of waiters from the head, each compatible with the holders before it, and ends at an empty
wait list or at a head that is not compatible (R11); each grant sets the expiry to the grant rotation plus the lease, or
to none, and keeps the rest of the claim (R12). -/
def Obligations.GrantPassGrantsTheCompatibleHeads : Prop :=
  ∀ (r : Word32) (x : ResRecord), ∃ run : List Claim,
    let granted := run.map (fun c : Claim =>
      { c with expiry := if c.lease = 0 then none else some (r + c.lease.setWidth 32) })
    x.waiters = run ++ (x.passed r).waiters
      ∧ (x.passed r).holders = x.holders ++ granted ∧ x.grants r = granted ∧ (x.passed r).resource = x.resource
      ∧ (∀ (i : Nat) (c : Claim), run[i]? = some c →
        (c.mode = .shared ∧ ∀ d ∈ x.holders ++ run.take i, d.mode ≠ .exclusive)
          ∨ (c.mode = .exclusive ∧ x.holders ++ run.take i = []))
      ∧ (∀ w ws, (x.passed r).waiters = w :: ws →
        (w.mode = .shared ∧ ∃ d ∈ x.holders ++ run, d.mode = .exclusive)
          ∨ (w.mode = .exclusive ∧ x.holders ++ run ≠ []))

/-- The boundary of rotation b takes five steps in this order (R60): join expiry, absence, lease expiry, patience expiry, and
the grant passes on the records touched. Step 1 cancels the join of an entry JOINING since before b - 8 (R57, R60). Step 2
walks the stations in ascending number and takes out each MEMBER whose last seen + M is earlier than b, and with it the
joiner whose donor it is (R57, R61). In steps 3 and 4 (R62) the HOLDING claims whose expiry is earlier than b are removed
with EXPIRED, then the WAITING ones with TIMED_OUT, in walk order; claims with expiry none, and the rest in their order,
stay. Step 5 passes each record touched, in ascending resource number, and removes the records left without claims (R9,
R63). -/
def Obligations.ExpiredClaimsEndAtTheBoundary : Prop :=
  (∀ (n m : Nat) (a : App) (b : Word32),
    a.boundary n m b = (((({ a with touched := [] } : App).joinExpiry b |>.absence n m b).leaseStep b).patienceStep
      b).grantPasses b)
  ∧ (∀ (a : App) (b : Word32),
    ((∀ k < 16, (a.tbu.entry k).isJoining = false) → a.joinExpiry b = a)
    ∧ (∀ k start donor, OneJoiner a.tbu → a.tbu.entry k = .joining start donor →
      (1 ≤ (b - (start + 8)).toNat ∧ (b - (start + 8)).toNat < 2 ^ 31 → TakesOut a [k] b (a.joinExpiry b))
      ∧ (¬ (1 ≤ (b - (start + 8)).toNat ∧ (b - (start + 8)).toNat < 2 ^ 31) → a.joinExpiry b = a)))
  ∧ (∀ (n m : Nat) (a : App) (b : Word32), a.absence n m b = (List.range n).foldl (App.absenceAt m b) a)
  ∧ (∀ (m : Nat) (a : App) (b : Word32) (h : Nat), OneJoiner a.tbu →
    ((a.tbu.entry h).isMember = false → a.absenceAt m b h = a)
    ∧ (∀ seen, a.tbu.entry h = .member seen →
      ((seen + BitVec.ofNat 32 m - b).toNat < 2 ^ 31 → a.absenceAt m b h = a)
      ∧ (2 ^ 31 ≤ (seen + BitVec.ofNat 32 m - b).toNat →
        (∀ k start, a.tbu.entry k = .joining start h → TakesOut a [h, k] b (a.absenceAt m b h))
        ∧ ((∀ k start, a.tbu.entry k ≠ .joining start h) → TakesOut a [h] b (a.absenceAt m b h)))))
  ∧ (∀ (a : App) (b : Word32),
    (a.grantPasses b).tbu.records = a.tbu.records.filterMap (fun x => if x.resource ∉ a.touched then some x
        else if ((x.passed b).holders = [] ∧ (x.passed b).waiters = []) then none else some (x.passed b))
      ∧ (a.grantPasses b).out = a.out ++ a.tbu.records.flatMap (fun x => if x.resource ∉ a.touched then []
        else (x.grants b).map (fun c =>
          (⟨c.station, { kind := .granted, tag := some c.tag, resource := some x.resource, mode := some c.mode
                         rotation := b, detail := .expiry c.expiry }⟩ : Outcome)))
      ∧ (a.grantPasses b).touched = []
      ∧ (a.tbu.inUse = a.tbu.records.length → (a.grantPasses b).tbu.inUse = (a.grantPasses b).tbu.records.length)
      ∧ (a.grantPasses b).tbu.roster = a.tbu.roster ∧ (a.grantPasses b).tbu.lastApplied = a.tbu.lastApplied
      ∧ (a.grantPasses b).tbu.free = a.tbu.free ∧ (a.grantPasses b).tbu.counts = a.tbu.counts)
  ∧ ∀ (a : App) (b : Word32),
    let late := fun (c : Claim) => match c.expiry with
      | none => false
      | some e => decide (2 ^ 31 ≤ (e - b).toNat)
    let note := fun (kind : NoteKind) (x : ResRecord) (c : Claim) =>
      (⟨c.station, { kind := kind, tag := some c.tag, resource := some x.resource, mode := some c.mode, rotation := b,
                     detail := .absent }⟩ : Outcome)
    let done := (a.leaseStep b).patienceStep b
    done.tbu.records = a.tbu.records.map (fun x => { x with
        holders := x.holders.filter (fun c => !late c), waiters := x.waiters.filter (fun c => !late c) })
      ∧ done.out = a.out
        ++ a.tbu.records.flatMap (fun x => (x.holders.filter late).map (note .expired x))
        ++ a.tbu.records.flatMap (fun x => (x.waiters.filter late).map (note .timedOut x))
      ∧ done.tbu.roster = a.tbu.roster ∧ done.tbu.lastApplied = a.tbu.lastApplied ∧ done.tbu.inUse = a.tbu.inUse
      ∧ (∀ x, x ∈ done.touched ↔ x ∈ a.touched ∨ ∃ r ∈ a.tbu.records, r.resource = x ∧ ∃ c ∈ r.claims, late c = true)

/-- The boundaries that a committed frame brings (R58, R59): none for a FOUND, which finds the last applied boundary none,
makes its sender MEMBER with last seen its rotation, and sets the last applied boundary to it; none for another frame whose
rotation is not later than the last applied boundary (and, with none applied, none: log 20); otherwise those of every
rotation after the last applied one through the frame's, in ascending order, and the frame's rotation is then the last
applied boundary. -/
def Obligations.BoundariesRunThroughTheFramesRotation : Prop :=
  (∀ (n m : Nat) (f : StreamFrame) (t : Tbu), f.kind = .found →
    (frameBoundaries n m f t).tbu = t ∧ (frameBoundaries n m f t).out = []
      ∧ frameEffect n f (frameBoundaries n m f t) = { frameBoundaries n m f t with
          tbu := { t with
            roster := t.roster.setIfInBounds f.sender (.member f.rotation), lastApplied := some f.rotation } })
  ∧ (∀ (n m : Nat) (f : StreamFrame) (t : Tbu), t.lastApplied = none →
    (frameBoundaries n m f t).tbu = t ∧ (frameBoundaries n m f t).out = [])
  ∧ ∀ (n m : Nat) (f : StreamFrame) (t : Tbu) (last : Word32), t.lastApplied = some last →
    (f.kind = .found → (frameBoundaries n m f t).tbu = t ∧ (frameBoundaries n m f t).out = [])
    ∧ (later f.rotation last = false → (frameBoundaries n m f t).tbu = t ∧ (frameBoundaries n m f t).out = [])
    ∧ (∀ k : Nat, f.kind ≠ .found → f.rotation = last + BitVec.ofNat 32 k → 1 ≤ k → k < 2 ^ 31 →
      let run := (List.range k).foldl (fun a i => a.boundary n m (last + BitVec.ofNat 32 (i + 1))) t.begin
      (frameBoundaries n m f t).out = run.out
        ∧ (frameBoundaries n m f t).tbu = { run.tbu with lastApplied := some f.rotation })

/-- Roster effects. A committed JOIN (R52): ignored when another station holds the slot or no station after j is MEMBER;
otherwise j's entry is JOINING with join start r and the first MEMBER after j in turn order as donor. Nothing else changes.
A committed LOADING frame changes nothing (R54). A committed LEAVE (R51, R56, R57): of a MEMBER sender, it takes out the
sender, and then the joiner whose donor it is, each with its claims LOST, and then passes the records touched; of another
sender it changes nothing. -/
def Obligations.CommittedJoinNamesTheNextMember : Prop :=
  (∀ (n : Nat) (f : StreamFrame) (a : App),
    (f.kind = .join → frameEffect n f a = a.joinEffect n f.sender f.rotation)
    ∧ (f.kind = .loading → frameEffect n f a = a)
    ∧ (f.kind = .leave →
      ((a.tbu.entry f.sender).isMember = false → frameEffect n f a = a)
      ∧ ((a.tbu.entry f.sender).isMember = true → OneJoiner a.tbu →
        (∀ k start, a.tbu.entry k = .joining start f.sender →
          ∃ b, TakesOut a [f.sender, k] f.rotation b ∧ frameEffect n f a = b.grantPasses f.rotation)
        ∧ ((∀ k start, a.tbu.entry k ≠ .joining start f.sender) →
          ∃ b, TakesOut a [f.sender] f.rotation b ∧ frameEffect n f a = b.grantPasses f.rotation))))
  ∧ ∀ (n j : Nat) (r : Word32) (a : App), j < n → n ≤ 16 →
    (∀ k, k ≠ j → (a.tbu.entry k).isJoining = true → OneJoiner a.tbu → a.joinEffect n j r = a)
    ∧ ((∀ k, k < n → k ≠ j → (a.tbu.entry k).isMember = false) → a.joinEffect n j r = a)
    ∧ (∀ i, (∀ k, k ≠ j → (a.tbu.entry k).isJoining = false) → 1 ≤ i → i < n →
      (a.tbu.entry ((j + i) % n)).isMember = true →
      (∀ i', 1 ≤ i' → i' < i → (a.tbu.entry ((j + i') % n)).isMember = false) →
      a.joinEffect n j r = { a with tbu := { a.tbu with
        roster := a.tbu.roster.setIfInBounds j (.joining r ((j + i) % n)) } })

/-- Every application keeps an observable table observable (R1, R2, R4, R6, R7, R11, R14): records ascending and never
bare, an EXCLUSIVE holder alone, no head waiter grantable, one claim of a station in a record, and the counts true and
within their limits. The applications are the application of a frame in range, the load of an image that passed the checks
of R116 and R125, whose head waiters are not grantable because they were not at its donor (R18), and the clearing. -/
def Obligations.ApplicationKeepsTheTableSound : Prop :=
  (∀ (n m : Nat) (f : StreamFrame) (t : Tbu), n ≤ 16 → f.wf n = true → TableSound t →
    TableSound (frameEffect n f (frameBoundaries n m f t)).tbu)
  ∧ (∀ (n : Nat) (ros : RosterItem) (recs : List ResRecord), n ≤ 16 → recs.length ≤ 64 → (∀ x ∈ recs, x.wf n = true) →
    ImageForm ros recs → (∀ x ∈ recs, headWaits x) → TableSound (Tbu.ofImage ros recs))
  ∧ TableSound Tbu.cleared

/-- Every application keeps at most one roster entry JOINING (R48, R52): that of a frame, the load of an image that passed
the checks of R125, and the clearing. -/
def Obligations.ApplicationKeepsOneJoiner : Prop :=
  (∀ (n m : Nat) (f : StreamFrame) (t : Tbu), f.sender < n → n ≤ 16 → OneJoiner t →
    OneJoiner (frameEffect n f (frameBoundaries n m f t)).tbu)
  ∧ (∀ (ros : RosterItem) (recs : List ResRecord), ImageForm ros recs → OneJoiner (Tbu.ofImage ros recs))
  ∧ OneJoiner Tbu.cleared

/-! ### The whole station -/

/-- Every step, with any command at the front of the queue or none, keeps a sound station sound: its table in the form of
R1 to R7 with at most one entry JOINING (R48), and every block within its bounds. It also keeps every head waiter not
grantable (R11), when those of the record items on the line are not, as R18 says of an image. -/
def Obligations.EveryStepKeepsTheStationSound : Prop :=
  (∀ s t : State, StationSound s → step s = .next t → StationSound t)
  ∧ (∀ s t : State, StationSound s → HeadsWait s →
    (∀ f, s.heard = .transfer f → ∀ x, .record x ∈ f.items → headWaits x) → step s = .next t → HeadsWait t)

/-- The station right after reset is sound. -/
def Obligations.ResetStationIsSound : Prop := StationSound State.reset
end

