-- ==== Sys2Proof/Laws/Bytes.lean ====
section
/-! SUPPORT. The line's bytes and bits read back: a byte string from its bits, and a field from the bytes it was written as. -/

namespace Sys2Proof.Machine

/-- The eight bits of a byte give the byte. -/
theorem byteOfBits_bits (b : Byte) :
    byteOfBits (b.getLsbD 7) (b.getLsbD 6) (b.getLsbD 5) (b.getLsbD 4) (b.getLsbD 3) (b.getLsbD 2) (b.getLsbD 1)
      (b.getLsbD 0) = b := by
  revert b; decide +kernel

/-- A byte string is read back from the bits it is sent as (R106, check 1). -/
theorem bytesOfBits_bitsOfBytes (l : List Byte) : bytesOfBits (bitsOfBytes l) = some l := by
  induction l with
  | nil => rfl
  | cons b l ih =>
    have e : bitsOfBytes (b :: l) = bitsOfByte b ++ bitsOfBytes l := rfl
    rw [e]
    simp only [bitsOfByte, List.cons_append, List.nil_append, bytesOfBits, ih, Option.map_some, byteOfBits_bits]

/-- A byte string has eight bits for each byte. -/
theorem bitsOfBytes_length (l : List Byte) : (bitsOfBytes l).length = 8 * l.length := by
  induction l with
  | nil => rfl
  | cons b l ih =>
    have e : bitsOfBytes (b :: l) = bitsOfByte b ++ bitsOfBytes l := rfl
    rw [e, List.length_append, ih]
    simp [bitsOfByte]; omega

@[simp] theorem bytes16_length (w : Word16) : (bytes16 w).length = 2 := rfl
@[simp] theorem bytes32_length (w : Word32) : (bytes32 w).length = 4 := rfl
@[simp] theorem echoBytes_length (e : Option FrameRef) : (echoBytes e).length = 9 := by cases e <;> rfl
@[simp] theorem entryBytes_length (q : Request) : (entryBytes q).length = 8 := rfl
@[simp] theorem rosterEntryBytes_length (e : RosterEntry) : (rosterEntryBytes e).length = 10 := by cases e <;> rfl
@[simp] theorem claimBytes_length (st : ClaimState) (c : Claim) : (claimBytes st c).length = 9 := rfl

/-- Both bytes of a word give the word. -/
theorem word16_of_bytes (w : Word16) : (w >>> 8).setWidth 8 ++ w.setWidth 8 = w := by
  apply BitVec.eq_of_getLsbD_eq
  intro i hi
  simp only [BitVec.getLsbD_append, BitVec.getLsbD_setWidth, BitVec.getLsbD_ushiftRight]
  by_cases h : i < 8
  · simp [h]
  · have h1 : i - 8 < 8 := by omega
    have h2 : 8 + (i - 8) = i := by omega
    simp [h, h1, h2]

/-- The four bytes of a word give the word. -/
theorem word32_of_bytes (w : Word32) :
    ((w >>> 24).setWidth 8 ++ (w >>> 16).setWidth 8 : BitVec 16) ++ ((w >>> 8).setWidth 8 ++ w.setWidth 8 : BitVec 16)
      = w := by
  apply BitVec.eq_of_getLsbD_eq
  intro i hi
  simp only [BitVec.getLsbD_append, BitVec.getLsbD_setWidth, BitVec.getLsbD_ushiftRight]
  by_cases h : i < 8
  · simp [h, show i < 16 by omega]
  · by_cases h2 : i < 16
    · simp [h, h2, show i - 8 < 8 by omega, show 8 + (i - 8) = i by omega]
    · by_cases h3 : i < 24
      · simp [h2, show i - 16 < 8 by omega, show 16 + (i - 16) = i by omega]
      · simp [h2, show ¬ (i - 16 < 8) by omega, show i - 16 - 8 < 8 by omega, show 24 + (i - 16 - 8) = i by omega]

/-- A 16-bit field at the head of a byte string. -/
theorem word16At_head (w : Word16) (l : List Byte) : word16At (bytes16 w ++ l) 0 = w := word16_of_bytes w

/-- A 32-bit field at the head of a byte string. -/
theorem word32At_head (w : Word32) (l : List Byte) : word32At (bytes32 w ++ l) 0 = w := word32_of_bytes w

/-- A byte behind a front of known length. -/
theorem byteAt_append (front l : List Byte) (i : Nat) : byteAt (front ++ l) (front.length + i) = byteAt l i := by
  simp [byteAt, List.getElem?_append_right]

/-- A 16-bit field behind a front of known length. -/
theorem word16At_append (front l : List Byte) (i : Nat) : word16At (front ++ l) (front.length + i) = word16At l i := by
  simp only [word16At, byteAt_append, Nat.add_assoc]

/-- A 32-bit field behind a front of known length. -/
theorem word32At_append (front l : List Byte) (i : Nat) : word32At (front ++ l) (front.length + i) = word32At l i := by
  simp only [word32At, word16At_append, Nat.add_assoc]

/-- A number below 256 is read back from its byte. -/
theorem byteOf_toNat {n : Nat} (h : n < 256) : (byteOf n).toNat = n := by
  simp [byteOf]; omega

/-- The frame check does not depend on the check field (R109). -/
theorem frameCheck_sealed (profile : Byte) (f : StreamFrame) :
    (f.sealed profile).check = frameCheck profile (.stream (f.sealed profile)) := rfl

/-- The bytes of a sealed frame are those of the frame. -/
theorem encodeFrame_sealed (profile : Byte) (f : Frame) : encodeFrame profile (f.sealed profile) = encodeFrame profile f := by
  cases f <;> rfl

end Sys2Proof.Machine
end

