-- ==== Sys2Proof/Laws/State.lean ====
section
/-! SUPPORT. One lemma per field of `State` per update: what an update of one block leaves in every block. -/

namespace Sys2Proof.Machine

/-! ### `setLif` -/

section
variable (s : State) (x : Lif)

@[simp] theorem State.setLif_lif : (s.setLif x).lif = x := rfl
@[simp] theorem State.setLif_trk : (s.setLif x).trk = s.trk := rfl
@[simp] theorem State.setLif_cmu : (s.setLif x).cmu = s.cmu := rfl
@[simp] theorem State.setLif_tbu : (s.setLif x).tbu = s.tbu := rfl
@[simp] theorem State.setLif_rqu : (s.setLif x).rqu = s.rqu := rfl
@[simp] theorem State.setLif_ntq : (s.setLif x).ntq = s.ntq := rfl
@[simp] theorem State.setLif_xfu : (s.setLif x).xfu = s.xfu := rfl
@[simp] theorem State.setLif_stc : (s.setLif x).stc = s.stc := rfl
@[simp] theorem State.setLif_lpt : (s.setLif x).lpt = s.lpt := rfl
@[simp] theorem State.setLif_pins : (s.setLif x).pins = s.pins := rfl
@[simp] theorem State.setLif_clock : (s.setLif x).clock = s.clock := rfl
@[simp] theorem State.setLif_pending : (s.setLif x).pending = s.pending := rfl
@[simp] theorem State.setLif_number : (s.setLif x).number = s.number := rfl
@[simp] theorem State.setLif_groupSize : (s.setLif x).groupSize = s.groupSize := rfl
@[simp] theorem State.setLif_absenceLimit : (s.setLif x).absenceLimit = s.absenceLimit := rfl
@[simp] theorem State.setLif_self : s.setLif s.lif = s := rfl

end

/-! ### `setTrk` -/

section
variable (s : State) (x : Trk)

@[simp] theorem State.setTrk_lif : (s.setTrk x).lif = s.lif := rfl
@[simp] theorem State.setTrk_trk : (s.setTrk x).trk = x := rfl
@[simp] theorem State.setTrk_cmu : (s.setTrk x).cmu = s.cmu := rfl
@[simp] theorem State.setTrk_tbu : (s.setTrk x).tbu = s.tbu := rfl
@[simp] theorem State.setTrk_rqu : (s.setTrk x).rqu = s.rqu := rfl
@[simp] theorem State.setTrk_ntq : (s.setTrk x).ntq = s.ntq := rfl
@[simp] theorem State.setTrk_xfu : (s.setTrk x).xfu = s.xfu := rfl
@[simp] theorem State.setTrk_stc : (s.setTrk x).stc = s.stc := rfl
@[simp] theorem State.setTrk_lpt : (s.setTrk x).lpt = s.lpt := rfl
@[simp] theorem State.setTrk_pins : (s.setTrk x).pins = s.pins := rfl
@[simp] theorem State.setTrk_clock : (s.setTrk x).clock = s.clock := rfl
@[simp] theorem State.setTrk_pending : (s.setTrk x).pending = s.pending := rfl
@[simp] theorem State.setTrk_number : (s.setTrk x).number = s.number := rfl
@[simp] theorem State.setTrk_groupSize : (s.setTrk x).groupSize = s.groupSize := rfl
@[simp] theorem State.setTrk_absenceLimit : (s.setTrk x).absenceLimit = s.absenceLimit := rfl
@[simp] theorem State.setTrk_profile : (s.setTrk x).profile = s.profile := rfl
@[simp] theorem State.setTrk_self : s.setTrk s.trk = s := rfl

end

/-! ### `setCmu` -/

section
variable (s : State) (x : Cmu)

@[simp] theorem State.setCmu_lif : (s.setCmu x).lif = s.lif := rfl
@[simp] theorem State.setCmu_trk : (s.setCmu x).trk = s.trk := rfl
@[simp] theorem State.setCmu_cmu : (s.setCmu x).cmu = x := rfl
@[simp] theorem State.setCmu_tbu : (s.setCmu x).tbu = s.tbu := rfl
@[simp] theorem State.setCmu_rqu : (s.setCmu x).rqu = s.rqu := rfl
@[simp] theorem State.setCmu_ntq : (s.setCmu x).ntq = s.ntq := rfl
@[simp] theorem State.setCmu_xfu : (s.setCmu x).xfu = s.xfu := rfl
@[simp] theorem State.setCmu_stc : (s.setCmu x).stc = s.stc := rfl
@[simp] theorem State.setCmu_lpt : (s.setCmu x).lpt = s.lpt := rfl
@[simp] theorem State.setCmu_pins : (s.setCmu x).pins = s.pins := rfl
@[simp] theorem State.setCmu_clock : (s.setCmu x).clock = s.clock := rfl
@[simp] theorem State.setCmu_pending : (s.setCmu x).pending = s.pending := rfl
@[simp] theorem State.setCmu_number : (s.setCmu x).number = s.number := rfl
@[simp] theorem State.setCmu_groupSize : (s.setCmu x).groupSize = s.groupSize := rfl
@[simp] theorem State.setCmu_absenceLimit : (s.setCmu x).absenceLimit = s.absenceLimit := rfl
@[simp] theorem State.setCmu_profile : (s.setCmu x).profile = s.profile := rfl
@[simp] theorem State.setCmu_self : s.setCmu s.cmu = s := rfl

end

/-! ### `setTbu` -/

section
variable (s : State) (x : Tbu)

@[simp] theorem State.setTbu_lif : (s.setTbu x).lif = s.lif := rfl
@[simp] theorem State.setTbu_trk : (s.setTbu x).trk = s.trk := rfl
@[simp] theorem State.setTbu_cmu : (s.setTbu x).cmu = s.cmu := rfl
@[simp] theorem State.setTbu_tbu : (s.setTbu x).tbu = x := rfl
@[simp] theorem State.setTbu_rqu : (s.setTbu x).rqu = s.rqu := rfl
@[simp] theorem State.setTbu_ntq : (s.setTbu x).ntq = s.ntq := rfl
@[simp] theorem State.setTbu_xfu : (s.setTbu x).xfu = s.xfu := rfl
@[simp] theorem State.setTbu_stc : (s.setTbu x).stc = s.stc := rfl
@[simp] theorem State.setTbu_lpt : (s.setTbu x).lpt = s.lpt := rfl
@[simp] theorem State.setTbu_pins : (s.setTbu x).pins = s.pins := rfl
@[simp] theorem State.setTbu_clock : (s.setTbu x).clock = s.clock := rfl
@[simp] theorem State.setTbu_pending : (s.setTbu x).pending = s.pending := rfl
@[simp] theorem State.setTbu_number : (s.setTbu x).number = s.number := rfl
@[simp] theorem State.setTbu_groupSize : (s.setTbu x).groupSize = s.groupSize := rfl
@[simp] theorem State.setTbu_absenceLimit : (s.setTbu x).absenceLimit = s.absenceLimit := rfl
@[simp] theorem State.setTbu_profile : (s.setTbu x).profile = s.profile := rfl
@[simp] theorem State.setTbu_self : s.setTbu s.tbu = s := rfl

end

/-! ### `setRqu` -/

section
variable (s : State) (x : Rqu)

@[simp] theorem State.setRqu_lif : (s.setRqu x).lif = s.lif := rfl
@[simp] theorem State.setRqu_trk : (s.setRqu x).trk = s.trk := rfl
@[simp] theorem State.setRqu_cmu : (s.setRqu x).cmu = s.cmu := rfl
@[simp] theorem State.setRqu_tbu : (s.setRqu x).tbu = s.tbu := rfl
@[simp] theorem State.setRqu_rqu : (s.setRqu x).rqu = x := rfl
@[simp] theorem State.setRqu_ntq : (s.setRqu x).ntq = s.ntq := rfl
@[simp] theorem State.setRqu_xfu : (s.setRqu x).xfu = s.xfu := rfl
@[simp] theorem State.setRqu_stc : (s.setRqu x).stc = s.stc := rfl
@[simp] theorem State.setRqu_lpt : (s.setRqu x).lpt = s.lpt := rfl
@[simp] theorem State.setRqu_pins : (s.setRqu x).pins = s.pins := rfl
@[simp] theorem State.setRqu_clock : (s.setRqu x).clock = s.clock := rfl
@[simp] theorem State.setRqu_pending : (s.setRqu x).pending = s.pending := rfl
@[simp] theorem State.setRqu_number : (s.setRqu x).number = s.number := rfl
@[simp] theorem State.setRqu_groupSize : (s.setRqu x).groupSize = s.groupSize := rfl
@[simp] theorem State.setRqu_absenceLimit : (s.setRqu x).absenceLimit = s.absenceLimit := rfl
@[simp] theorem State.setRqu_profile : (s.setRqu x).profile = s.profile := rfl
@[simp] theorem State.setRqu_self : s.setRqu s.rqu = s := rfl

end

/-! ### `setNtq` -/

section
variable (s : State) (x : Ntq)

@[simp] theorem State.setNtq_lif : (s.setNtq x).lif = s.lif := rfl
@[simp] theorem State.setNtq_trk : (s.setNtq x).trk = s.trk := rfl
@[simp] theorem State.setNtq_cmu : (s.setNtq x).cmu = s.cmu := rfl
@[simp] theorem State.setNtq_tbu : (s.setNtq x).tbu = s.tbu := rfl
@[simp] theorem State.setNtq_rqu : (s.setNtq x).rqu = s.rqu := rfl
@[simp] theorem State.setNtq_ntq : (s.setNtq x).ntq = x := rfl
@[simp] theorem State.setNtq_xfu : (s.setNtq x).xfu = s.xfu := rfl
@[simp] theorem State.setNtq_stc : (s.setNtq x).stc = s.stc := rfl
@[simp] theorem State.setNtq_lpt : (s.setNtq x).lpt = s.lpt := rfl
@[simp] theorem State.setNtq_pins : (s.setNtq x).pins = s.pins := rfl
@[simp] theorem State.setNtq_clock : (s.setNtq x).clock = s.clock := rfl
@[simp] theorem State.setNtq_pending : (s.setNtq x).pending = s.pending := rfl
@[simp] theorem State.setNtq_number : (s.setNtq x).number = s.number := rfl
@[simp] theorem State.setNtq_groupSize : (s.setNtq x).groupSize = s.groupSize := rfl
@[simp] theorem State.setNtq_absenceLimit : (s.setNtq x).absenceLimit = s.absenceLimit := rfl
@[simp] theorem State.setNtq_profile : (s.setNtq x).profile = s.profile := rfl
@[simp] theorem State.setNtq_self : s.setNtq s.ntq = s := rfl

end

/-! ### `setXfu` -/

section
variable (s : State) (x : Xfu)

@[simp] theorem State.setXfu_lif : (s.setXfu x).lif = s.lif := rfl
@[simp] theorem State.setXfu_trk : (s.setXfu x).trk = s.trk := rfl
@[simp] theorem State.setXfu_cmu : (s.setXfu x).cmu = s.cmu := rfl
@[simp] theorem State.setXfu_tbu : (s.setXfu x).tbu = s.tbu := rfl
@[simp] theorem State.setXfu_rqu : (s.setXfu x).rqu = s.rqu := rfl
@[simp] theorem State.setXfu_ntq : (s.setXfu x).ntq = s.ntq := rfl
@[simp] theorem State.setXfu_xfu : (s.setXfu x).xfu = x := rfl
@[simp] theorem State.setXfu_stc : (s.setXfu x).stc = s.stc := rfl
@[simp] theorem State.setXfu_lpt : (s.setXfu x).lpt = s.lpt := rfl
@[simp] theorem State.setXfu_pins : (s.setXfu x).pins = s.pins := rfl
@[simp] theorem State.setXfu_clock : (s.setXfu x).clock = s.clock := rfl
@[simp] theorem State.setXfu_pending : (s.setXfu x).pending = s.pending := rfl
@[simp] theorem State.setXfu_number : (s.setXfu x).number = s.number := rfl
@[simp] theorem State.setXfu_groupSize : (s.setXfu x).groupSize = s.groupSize := rfl
@[simp] theorem State.setXfu_absenceLimit : (s.setXfu x).absenceLimit = s.absenceLimit := rfl
@[simp] theorem State.setXfu_profile : (s.setXfu x).profile = s.profile := rfl
@[simp] theorem State.setXfu_self : s.setXfu s.xfu = s := rfl

end

/-! ### `setStc` -/

section
variable (s : State) (x : Stc)

@[simp] theorem State.setStc_lif : (s.setStc x).lif = s.lif := rfl
@[simp] theorem State.setStc_trk : (s.setStc x).trk = s.trk := rfl
@[simp] theorem State.setStc_cmu : (s.setStc x).cmu = s.cmu := rfl
@[simp] theorem State.setStc_tbu : (s.setStc x).tbu = s.tbu := rfl
@[simp] theorem State.setStc_rqu : (s.setStc x).rqu = s.rqu := rfl
@[simp] theorem State.setStc_ntq : (s.setStc x).ntq = s.ntq := rfl
@[simp] theorem State.setStc_xfu : (s.setStc x).xfu = s.xfu := rfl
@[simp] theorem State.setStc_stc : (s.setStc x).stc = x := rfl
@[simp] theorem State.setStc_lpt : (s.setStc x).lpt = s.lpt := rfl
@[simp] theorem State.setStc_pins : (s.setStc x).pins = s.pins := rfl
@[simp] theorem State.setStc_clock : (s.setStc x).clock = s.clock := rfl
@[simp] theorem State.setStc_pending : (s.setStc x).pending = s.pending := rfl
@[simp] theorem State.setStc_profile : (s.setStc x).profile = s.profile := rfl
@[simp] theorem State.setStc_self : s.setStc s.stc = s := rfl

end

/-! ### `setLpt` -/

section
variable (s : State) (x : Lpt)

@[simp] theorem State.setLpt_lif : (s.setLpt x).lif = s.lif := rfl
@[simp] theorem State.setLpt_trk : (s.setLpt x).trk = s.trk := rfl
@[simp] theorem State.setLpt_cmu : (s.setLpt x).cmu = s.cmu := rfl
@[simp] theorem State.setLpt_tbu : (s.setLpt x).tbu = s.tbu := rfl
@[simp] theorem State.setLpt_rqu : (s.setLpt x).rqu = s.rqu := rfl
@[simp] theorem State.setLpt_ntq : (s.setLpt x).ntq = s.ntq := rfl
@[simp] theorem State.setLpt_xfu : (s.setLpt x).xfu = s.xfu := rfl
@[simp] theorem State.setLpt_stc : (s.setLpt x).stc = s.stc := rfl
@[simp] theorem State.setLpt_lpt : (s.setLpt x).lpt = x := rfl
@[simp] theorem State.setLpt_pins : (s.setLpt x).pins = s.pins := rfl
@[simp] theorem State.setLpt_clock : (s.setLpt x).clock = s.clock := rfl
@[simp] theorem State.setLpt_pending : (s.setLpt x).pending = s.pending := rfl
@[simp] theorem State.setLpt_number : (s.setLpt x).number = s.number := rfl
@[simp] theorem State.setLpt_groupSize : (s.setLpt x).groupSize = s.groupSize := rfl
@[simp] theorem State.setLpt_absenceLimit : (s.setLpt x).absenceLimit = s.absenceLimit := rfl
@[simp] theorem State.setLpt_profile : (s.setLpt x).profile = s.profile := rfl
@[simp] theorem State.setLpt_self : s.setLpt s.lpt = s := rfl

end

/-! ### `setPins` -/

section
variable (s : State) (x : Pins)

@[simp] theorem State.setPins_lif : (s.setPins x).lif = s.lif := rfl
@[simp] theorem State.setPins_trk : (s.setPins x).trk = s.trk := rfl
@[simp] theorem State.setPins_cmu : (s.setPins x).cmu = s.cmu := rfl
@[simp] theorem State.setPins_tbu : (s.setPins x).tbu = s.tbu := rfl
@[simp] theorem State.setPins_rqu : (s.setPins x).rqu = s.rqu := rfl
@[simp] theorem State.setPins_ntq : (s.setPins x).ntq = s.ntq := rfl
@[simp] theorem State.setPins_xfu : (s.setPins x).xfu = s.xfu := rfl
@[simp] theorem State.setPins_stc : (s.setPins x).stc = s.stc := rfl
@[simp] theorem State.setPins_lpt : (s.setPins x).lpt = s.lpt := rfl
@[simp] theorem State.setPins_pins : (s.setPins x).pins = x := rfl
@[simp] theorem State.setPins_clock : (s.setPins x).clock = s.clock := rfl
@[simp] theorem State.setPins_pending : (s.setPins x).pending = s.pending := rfl
@[simp] theorem State.setPins_number : (s.setPins x).number = s.number := rfl
@[simp] theorem State.setPins_groupSize : (s.setPins x).groupSize = s.groupSize := rfl
@[simp] theorem State.setPins_absenceLimit : (s.setPins x).absenceLimit = s.absenceLimit := rfl
@[simp] theorem State.setPins_profile : (s.setPins x).profile = s.profile := rfl
@[simp] theorem State.setPins_self : s.setPins s.pins = s := rfl

end

/-! ### `setPending` -/

section
variable (s : State) (x : List Instr)

@[simp] theorem State.setPending_lif : (s.setPending x).lif = s.lif := rfl
@[simp] theorem State.setPending_trk : (s.setPending x).trk = s.trk := rfl
@[simp] theorem State.setPending_cmu : (s.setPending x).cmu = s.cmu := rfl
@[simp] theorem State.setPending_tbu : (s.setPending x).tbu = s.tbu := rfl
@[simp] theorem State.setPending_rqu : (s.setPending x).rqu = s.rqu := rfl
@[simp] theorem State.setPending_ntq : (s.setPending x).ntq = s.ntq := rfl
@[simp] theorem State.setPending_xfu : (s.setPending x).xfu = s.xfu := rfl
@[simp] theorem State.setPending_stc : (s.setPending x).stc = s.stc := rfl
@[simp] theorem State.setPending_lpt : (s.setPending x).lpt = s.lpt := rfl
@[simp] theorem State.setPending_pins : (s.setPending x).pins = s.pins := rfl
@[simp] theorem State.setPending_clock : (s.setPending x).clock = s.clock := rfl
@[simp] theorem State.setPending_pending : (s.setPending x).pending = x := rfl
@[simp] theorem State.setPending_number : (s.setPending x).number = s.number := rfl
@[simp] theorem State.setPending_groupSize : (s.setPending x).groupSize = s.groupSize := rfl
@[simp] theorem State.setPending_absenceLimit : (s.setPending x).absenceLimit = s.absenceLimit := rfl
@[simp] theorem State.setPending_profile : (s.setPending x).profile = s.profile := rfl
@[simp] theorem State.setPending_self : s.setPending s.pending = s := rfl

end

/-! ### Two updates of one block -/

@[simp] theorem State.setLif_setLif (s : State) (x y : Lif) : (s.setLif x).setLif y = s.setLif y := rfl
@[simp] theorem State.setTrk_setTrk (s : State) (x y : Trk) : (s.setTrk x).setTrk y = s.setTrk y := rfl
@[simp] theorem State.setCmu_setCmu (s : State) (x y : Cmu) : (s.setCmu x).setCmu y = s.setCmu y := rfl
@[simp] theorem State.setTbu_setTbu (s : State) (x y : Tbu) : (s.setTbu x).setTbu y = s.setTbu y := rfl
@[simp] theorem State.setRqu_setRqu (s : State) (x y : Rqu) : (s.setRqu x).setRqu y = s.setRqu y := rfl
@[simp] theorem State.setNtq_setNtq (s : State) (x y : Ntq) : (s.setNtq x).setNtq y = s.setNtq y := rfl
@[simp] theorem State.setXfu_setXfu (s : State) (x y : Xfu) : (s.setXfu x).setXfu y = s.setXfu y := rfl
@[simp] theorem State.setStc_setStc (s : State) (x y : Stc) : (s.setStc x).setStc y = s.setStc y := rfl
@[simp] theorem State.setLpt_setLpt (s : State) (x y : Lpt) : (s.setLpt x).setLpt y = s.setLpt y := rfl
@[simp] theorem State.setPins_setPins (s : State) (x y : Pins) : (s.setPins x).setPins y = s.setPins y := rfl
@[simp] theorem State.setPending_setPending (s : State) (x y : List Instr) : (s.setPending x).setPending y = s.setPending y := rfl

/-- Two states with the same blocks are the same state. -/
theorem State.ext_blocks {s t : State} (lif : s.lif = t.lif) (trk : s.trk = t.trk) (cmu : s.cmu = t.cmu)
    (tbu : s.tbu = t.tbu) (rqu : s.rqu = t.rqu) (ntq : s.ntq = t.ntq) (xfu : s.xfu = t.xfu) (stc : s.stc = t.stc)
    (lpt : s.lpt = t.lpt) (pins : s.pins = t.pins) (clock : s.clock = t.clock) (pending : s.pending = t.pending) :
    s = t := by
  cases s; cases t; simp_all

end Sys2Proof.Machine
end

