-- ==== Sys2Proof/Laws/Ops.lean ====
section
/-! SUPPORT. What the operations of `Machine/Ops.lean` leave in every block, and what an offer does to the Notification
Queue and a move to the Request Unit. -/

namespace Sys2Proof.Machine

/-! ### The Notification Queue -/

/-- A record offered to a queue with room goes to its tail (R176). -/
theorem Ntq.offer_room {q : Ntq} (n : Note) (h : q.queue.length < 64) : q.offer n = { q with queue := q.queue ++ [n] } := by
  simp [Ntq.offer, h]

/-- A record offered to a full queue is lost and counted (R176). -/
theorem Ntq.offer_full {q : Ntq} (n : Note) (h : 64 ≤ q.queue.length) :
    q.offer n = { q with lost := min (q.lost + 1) 65535, overflow := true } := by
  simp [Ntq.offer, Nat.not_lt.mpr h]

/-- An offer leaves HEAD0 to HEAD4 as they are. -/
@[simp] theorem Ntq.offer_head (q : Ntq) (n : Note) : (q.offer n).head = q.head := by
  unfold Ntq.offer; split <;> rfl

/-- An offer keeps the queue within its 64 places. -/
theorem Ntq.offer_length {q : Ntq} (n : Note) (h : q.queue.length ≤ 64) : (q.offer n).queue.length ≤ 64 := by
  unfold Ntq.offer
  split
  · rename_i hlt; simp at hlt ⊢; omega
  · exact h

/-- Offers keep the queue within its 64 places. -/
theorem Ntq.offerAll_length (ns : List Note) {q : Ntq} (h : q.queue.length ≤ 64) :
    (ns.foldl Ntq.offer q).queue.length ≤ 64 := by
  induction ns generalizing q with
  | nil => exact h
  | cons n ns ih => exact ih (Ntq.offer_length n h)

/-- Offers leave HEAD0 to HEAD4 as they are. -/
@[simp] theorem Ntq.offerAll_head (ns : List Note) (q : Ntq) : (ns.foldl Ntq.offer q).head = q.head := by
  induction ns generalizing q with
  | nil => rfl
  | cons n ns ih => simp [ih]

/-- Offers that fit lose nothing. -/
theorem Ntq.offerAll_room (ns : List Note) {q : Ntq} (h : q.queue.length + ns.length ≤ 64) :
    ns.foldl Ntq.offer q = { q with queue := q.queue ++ ns } := by
  induction ns generalizing q with
  | nil => simp
  | cons n ns ih =>
    simp only [List.length_cons] at h
    rw [List.foldl_cons, Ntq.offer_room n (by omega), ih (by simp; omega)]
    simp

/-! ### `offer` (R175, R176) -/

section
variable (s : State)

@[simp] theorem State.offer_lif (n : Note) : (s.offer n).lif = s.lif := rfl
@[simp] theorem State.offer_trk (n : Note) : (s.offer n).trk = s.trk := rfl
@[simp] theorem State.offer_cmu (n : Note) : (s.offer n).cmu = s.cmu := rfl
@[simp] theorem State.offer_tbu (n : Note) : (s.offer n).tbu = s.tbu := rfl
@[simp] theorem State.offer_rqu (n : Note) : (s.offer n).rqu = s.rqu := rfl
@[simp] theorem State.offer_ntq (n : Note) : (s.offer n).ntq = s.ntq.offer n := rfl
@[simp] theorem State.offer_xfu (n : Note) : (s.offer n).xfu = s.xfu := rfl
@[simp] theorem State.offer_stc (n : Note) : (s.offer n).stc = s.stc := rfl
@[simp] theorem State.offer_lpt (n : Note) : (s.offer n).lpt = s.lpt := rfl
@[simp] theorem State.offer_pins (n : Note) : (s.offer n).pins = s.pins := rfl
@[simp] theorem State.offer_clock (n : Note) : (s.offer n).clock = s.clock := rfl
@[simp] theorem State.offer_pending (n : Note) : (s.offer n).pending = s.pending := rfl
@[simp] theorem State.offer_number (n : Note) : (s.offer n).number = s.number := rfl
@[simp] theorem State.offer_groupSize (n : Note) : (s.offer n).groupSize = s.groupSize := rfl
@[simp] theorem State.offer_absenceLimit (n : Note) : (s.offer n).absenceLimit = s.absenceLimit := rfl
@[simp] theorem State.offer_profile (n : Note) : (s.offer n).profile = s.profile := rfl

end

/-! ### `offerAll` (R175) -/

section
variable (s : State)

@[simp] theorem State.offerAll_lif (ns : List Note) : (s.offerAll ns).lif = s.lif := rfl
@[simp] theorem State.offerAll_trk (ns : List Note) : (s.offerAll ns).trk = s.trk := rfl
@[simp] theorem State.offerAll_cmu (ns : List Note) : (s.offerAll ns).cmu = s.cmu := rfl
@[simp] theorem State.offerAll_tbu (ns : List Note) : (s.offerAll ns).tbu = s.tbu := rfl
@[simp] theorem State.offerAll_rqu (ns : List Note) : (s.offerAll ns).rqu = s.rqu := rfl
@[simp] theorem State.offerAll_ntq (ns : List Note) : (s.offerAll ns).ntq = ns.foldl Ntq.offer s.ntq := rfl
@[simp] theorem State.offerAll_xfu (ns : List Note) : (s.offerAll ns).xfu = s.xfu := rfl
@[simp] theorem State.offerAll_stc (ns : List Note) : (s.offerAll ns).stc = s.stc := rfl
@[simp] theorem State.offerAll_lpt (ns : List Note) : (s.offerAll ns).lpt = s.lpt := rfl
@[simp] theorem State.offerAll_pins (ns : List Note) : (s.offerAll ns).pins = s.pins := rfl
@[simp] theorem State.offerAll_clock (ns : List Note) : (s.offerAll ns).clock = s.clock := rfl
@[simp] theorem State.offerAll_pending (ns : List Note) : (s.offerAll ns).pending = s.pending := rfl
@[simp] theorem State.offerAll_number (ns : List Note) : (s.offerAll ns).number = s.number := rfl
@[simp] theorem State.offerAll_groupSize (ns : List Note) : (s.offerAll ns).groupSize = s.groupSize := rfl
@[simp] theorem State.offerAll_absenceLimit (ns : List Note) : (s.offerAll ns).absenceLimit = s.absenceLimit := rfl
@[simp] theorem State.offerAll_profile (ns : List Note) : (s.offerAll ns).profile = s.profile := rfl

end

/-! ### `enter` (R142) -/

section
variable (s : State)

@[simp] theorem State.enter_lif (st : StationState) (w : StateReason) (f : Option JoinFailure) (r : Word32) : (s.enter st w f r).lif = s.lif := rfl
@[simp] theorem State.enter_trk (st : StationState) (w : StateReason) (f : Option JoinFailure) (r : Word32) : (s.enter st w f r).trk = s.trk := rfl
@[simp] theorem State.enter_cmu (st : StationState) (w : StateReason) (f : Option JoinFailure) (r : Word32) : (s.enter st w f r).cmu = s.cmu := rfl
@[simp] theorem State.enter_tbu (st : StationState) (w : StateReason) (f : Option JoinFailure) (r : Word32) : (s.enter st w f r).tbu = s.tbu := rfl
@[simp] theorem State.enter_rqu (st : StationState) (w : StateReason) (f : Option JoinFailure) (r : Word32) : (s.enter st w f r).rqu = s.rqu := rfl
@[simp] theorem State.enter_ntq (st : StationState) (w : StateReason) (f : Option JoinFailure) (r : Word32) : (s.enter st w f r).ntq = s.ntq.offer (stateNote st w f r) := rfl
@[simp] theorem State.enter_xfu (st : StationState) (w : StateReason) (f : Option JoinFailure) (r : Word32) : (s.enter st w f r).xfu = s.xfu := rfl
@[simp] theorem State.enter_stc (st : StationState) (w : StateReason) (f : Option JoinFailure) (r : Word32) : (s.enter st w f r).stc = { s.stc with station := st } := rfl
@[simp] theorem State.enter_lpt (st : StationState) (w : StateReason) (f : Option JoinFailure) (r : Word32) : (s.enter st w f r).lpt = s.lpt := rfl
@[simp] theorem State.enter_pins (st : StationState) (w : StateReason) (f : Option JoinFailure) (r : Word32) : (s.enter st w f r).pins = s.pins := rfl
@[simp] theorem State.enter_clock (st : StationState) (w : StateReason) (f : Option JoinFailure) (r : Word32) : (s.enter st w f r).clock = s.clock := rfl
@[simp] theorem State.enter_pending (st : StationState) (w : StateReason) (f : Option JoinFailure) (r : Word32) : (s.enter st w f r).pending = s.pending := rfl
@[simp] theorem State.enter_number (st : StationState) (w : StateReason) (f : Option JoinFailure) (r : Word32) : (s.enter st w f r).number = s.number := rfl
@[simp] theorem State.enter_groupSize (st : StationState) (w : StateReason) (f : Option JoinFailure) (r : Word32) : (s.enter st w f r).groupSize = s.groupSize := rfl
@[simp] theorem State.enter_absenceLimit (st : StationState) (w : StateReason) (f : Option JoinFailure) (r : Word32) : (s.enter st w f r).absenceLimit = s.absenceLimit := rfl
@[simp] theorem State.enter_profile (st : StationState) (w : StateReason) (f : Option JoinFailure) (r : Word32) : (s.enter st w f r).profile = s.profile := rfl

end

/-! ### `answer` (R183) -/

section
variable (s : State)

@[simp] theorem State.answer_lif (code : Word16) (r : Result) : (s.answer code r).lif = s.lif := rfl
@[simp] theorem State.answer_trk (code : Word16) (r : Result) : (s.answer code r).trk = s.trk := rfl
@[simp] theorem State.answer_cmu (code : Word16) (r : Result) : (s.answer code r).cmu = s.cmu := rfl
@[simp] theorem State.answer_tbu (code : Word16) (r : Result) : (s.answer code r).tbu = s.tbu := rfl
@[simp] theorem State.answer_rqu (code : Word16) (r : Result) : (s.answer code r).rqu = s.rqu := rfl
@[simp] theorem State.answer_ntq (code : Word16) (r : Result) : (s.answer code r).ntq = s.ntq := rfl
@[simp] theorem State.answer_xfu (code : Word16) (r : Result) : (s.answer code r).xfu = s.xfu := rfl
@[simp] theorem State.answer_stc (code : Word16) (r : Result) : (s.answer code r).stc = s.stc := rfl
@[simp] theorem State.answer_lpt (code : Word16) (r : Result) : (s.answer code r).lpt = { s.lpt with cmd := code, result := r } := rfl
@[simp] theorem State.answer_pins (code : Word16) (r : Result) : (s.answer code r).pins = s.pins := rfl
@[simp] theorem State.answer_clock (code : Word16) (r : Result) : (s.answer code r).clock = s.clock := rfl
@[simp] theorem State.answer_pending (code : Word16) (r : Result) : (s.answer code r).pending = s.pending := rfl
@[simp] theorem State.answer_number (code : Word16) (r : Result) : (s.answer code r).number = s.number := rfl
@[simp] theorem State.answer_groupSize (code : Word16) (r : Result) : (s.answer code r).groupSize = s.groupSize := rfl
@[simp] theorem State.answer_absenceLimit (code : Word16) (r : Result) : (s.answer code r).absenceLimit = s.absenceLimit := rfl
@[simp] theorem State.answer_profile (code : Word16) (r : Result) : (s.answer code r).profile = s.profile := rfl

end

/-! ### `abortInflight` (R169) -/

section
variable (s : State)

@[simp] theorem State.abortInflight_lif (r : Word32) : (s.abortInflight r).lif = s.lif := rfl
@[simp] theorem State.abortInflight_trk (r : Word32) : (s.abortInflight r).trk = s.trk := rfl
@[simp] theorem State.abortInflight_cmu (r : Word32) : (s.abortInflight r).cmu = s.cmu := rfl
@[simp] theorem State.abortInflight_tbu (r : Word32) : (s.abortInflight r).tbu = s.tbu := rfl
@[simp] theorem State.abortInflight_rqu (r : Word32) : (s.abortInflight r).rqu = { s.rqu with inflight := [], carrier := none, live := dropTags s.rqu.inflight s.rqu.live } := rfl
@[simp] theorem State.abortInflight_ntq (r : Word32) : (s.abortInflight r).ntq = (s.rqu.inflight.map (requestNote .aborted r)).foldl Ntq.offer s.ntq := rfl
@[simp] theorem State.abortInflight_xfu (r : Word32) : (s.abortInflight r).xfu = s.xfu := rfl
@[simp] theorem State.abortInflight_stc (r : Word32) : (s.abortInflight r).stc = s.stc := rfl
@[simp] theorem State.abortInflight_lpt (r : Word32) : (s.abortInflight r).lpt = s.lpt := rfl
@[simp] theorem State.abortInflight_pins (r : Word32) : (s.abortInflight r).pins = s.pins := rfl
@[simp] theorem State.abortInflight_clock (r : Word32) : (s.abortInflight r).clock = s.clock := rfl
@[simp] theorem State.abortInflight_pending (r : Word32) : (s.abortInflight r).pending = s.pending := rfl
@[simp] theorem State.abortInflight_number (r : Word32) : (s.abortInflight r).number = s.number := rfl
@[simp] theorem State.abortInflight_groupSize (r : Word32) : (s.abortInflight r).groupSize = s.groupSize := rfl
@[simp] theorem State.abortInflight_absenceLimit (r : Word32) : (s.abortInflight r).absenceLimit = s.absenceLimit := rfl
@[simp] theorem State.abortInflight_profile (r : Word32) : (s.abortInflight r).profile = s.profile := rfl

end

/-! ### `abortOutgoing` (R169) -/

section
variable (s : State)

@[simp] theorem State.abortOutgoing_lif (r : Word32) : (s.abortOutgoing r).lif = s.lif := rfl
@[simp] theorem State.abortOutgoing_trk (r : Word32) : (s.abortOutgoing r).trk = s.trk := rfl
@[simp] theorem State.abortOutgoing_cmu (r : Word32) : (s.abortOutgoing r).cmu = s.cmu := rfl
@[simp] theorem State.abortOutgoing_tbu (r : Word32) : (s.abortOutgoing r).tbu = s.tbu := rfl
@[simp] theorem State.abortOutgoing_rqu (r : Word32) : (s.abortOutgoing r).rqu = { s.rqu with outgoing := [], live := dropTags s.rqu.outgoing s.rqu.live } := rfl
@[simp] theorem State.abortOutgoing_ntq (r : Word32) : (s.abortOutgoing r).ntq = (s.rqu.outgoing.map (requestNote .aborted r)).foldl Ntq.offer s.ntq := rfl
@[simp] theorem State.abortOutgoing_xfu (r : Word32) : (s.abortOutgoing r).xfu = s.xfu := rfl
@[simp] theorem State.abortOutgoing_stc (r : Word32) : (s.abortOutgoing r).stc = s.stc := rfl
@[simp] theorem State.abortOutgoing_lpt (r : Word32) : (s.abortOutgoing r).lpt = s.lpt := rfl
@[simp] theorem State.abortOutgoing_pins (r : Word32) : (s.abortOutgoing r).pins = s.pins := rfl
@[simp] theorem State.abortOutgoing_clock (r : Word32) : (s.abortOutgoing r).clock = s.clock := rfl
@[simp] theorem State.abortOutgoing_pending (r : Word32) : (s.abortOutgoing r).pending = s.pending := rfl
@[simp] theorem State.abortOutgoing_number (r : Word32) : (s.abortOutgoing r).number = s.number := rfl
@[simp] theorem State.abortOutgoing_groupSize (r : Word32) : (s.abortOutgoing r).groupSize = s.groupSize := rfl
@[simp] theorem State.abortOutgoing_absenceLimit (r : Word32) : (s.abortOutgoing r).absenceLimit = s.absenceLimit := rfl
@[simp] theorem State.abortOutgoing_profile (r : Word32) : (s.abortOutgoing r).profile = s.profile := rfl

end

/-! ### `abortAll` (R152, R153, R154) -/

section
variable (s : State)

@[simp] theorem State.abortAll_lif (r : Word32) : (s.abortAll r).lif = s.lif := rfl
@[simp] theorem State.abortAll_trk (r : Word32) : (s.abortAll r).trk = s.trk := rfl
@[simp] theorem State.abortAll_cmu (r : Word32) : (s.abortAll r).cmu = s.cmu := rfl
@[simp] theorem State.abortAll_tbu (r : Word32) : (s.abortAll r).tbu = s.tbu := rfl
@[simp] theorem State.abortAll_xfu (r : Word32) : (s.abortAll r).xfu = s.xfu := rfl
@[simp] theorem State.abortAll_stc (r : Word32) : (s.abortAll r).stc = s.stc := rfl
@[simp] theorem State.abortAll_lpt (r : Word32) : (s.abortAll r).lpt = s.lpt := rfl
@[simp] theorem State.abortAll_pins (r : Word32) : (s.abortAll r).pins = s.pins := rfl
@[simp] theorem State.abortAll_clock (r : Word32) : (s.abortAll r).clock = s.clock := rfl
@[simp] theorem State.abortAll_pending (r : Word32) : (s.abortAll r).pending = s.pending := rfl
@[simp] theorem State.abortAll_number (r : Word32) : (s.abortAll r).number = s.number := rfl
@[simp] theorem State.abortAll_groupSize (r : Word32) : (s.abortAll r).groupSize = s.groupSize := rfl
@[simp] theorem State.abortAll_absenceLimit (r : Word32) : (s.abortAll r).absenceLimit = s.absenceLimit := rfl
@[simp] theorem State.abortAll_profile (r : Word32) : (s.abortAll r).profile = s.profile := rfl
@[simp] theorem State.abortAll_ntq (r : Word32) : (s.abortAll r).ntq
    = ((s.rqu.inflight ++ s.rqu.outgoing).map (requestNote .aborted r)).foldl Ntq.offer s.ntq := by
  simp [State.abortAll]
@[simp] theorem State.abortAll_rqu (r : Word32) : (s.abortAll r).rqu
    = { outgoing := [], inflight := [], carrier := none, live := dropTags (s.rqu.inflight ++ s.rqu.outgoing) s.rqu.live } := by
  simp [State.abortAll, dropTags]

end

/-! ### `abortDiscarded` (R23, R164) -/

section
variable (s : State)

@[simp] theorem State.abortDiscarded_lif (k : Nat) (r : Word32) : (s.abortDiscarded k r).lif = s.lif := rfl
@[simp] theorem State.abortDiscarded_trk (k : Nat) (r : Word32) : (s.abortDiscarded k r).trk = s.trk := rfl
@[simp] theorem State.abortDiscarded_cmu (k : Nat) (r : Word32) : (s.abortDiscarded k r).cmu = s.cmu := rfl
@[simp] theorem State.abortDiscarded_tbu (k : Nat) (r : Word32) : (s.abortDiscarded k r).tbu = s.tbu := rfl
@[simp] theorem State.abortDiscarded_rqu (k : Nat) (r : Word32) : (s.abortDiscarded k r).rqu = s.rqu.endResults k := rfl
@[simp] theorem State.abortDiscarded_ntq (k : Nat) (r : Word32) : (s.abortDiscarded k r).ntq = ((s.rqu.inflight.take k).map (requestNote .aborted r)).foldl Ntq.offer s.ntq := rfl
@[simp] theorem State.abortDiscarded_xfu (k : Nat) (r : Word32) : (s.abortDiscarded k r).xfu = s.xfu := rfl
@[simp] theorem State.abortDiscarded_stc (k : Nat) (r : Word32) : (s.abortDiscarded k r).stc = s.stc := rfl
@[simp] theorem State.abortDiscarded_lpt (k : Nat) (r : Word32) : (s.abortDiscarded k r).lpt = s.lpt := rfl
@[simp] theorem State.abortDiscarded_pins (k : Nat) (r : Word32) : (s.abortDiscarded k r).pins = s.pins := rfl
@[simp] theorem State.abortDiscarded_clock (k : Nat) (r : Word32) : (s.abortDiscarded k r).clock = s.clock := rfl
@[simp] theorem State.abortDiscarded_pending (k : Nat) (r : Word32) : (s.abortDiscarded k r).pending = s.pending := rfl
@[simp] theorem State.abortDiscarded_number (k : Nat) (r : Word32) : (s.abortDiscarded k r).number = s.number := rfl
@[simp] theorem State.abortDiscarded_groupSize (k : Nat) (r : Word32) : (s.abortDiscarded k r).groupSize = s.groupSize := rfl
@[simp] theorem State.abortDiscarded_absenceLimit (k : Nat) (r : Word32) : (s.abortDiscarded k r).absenceLimit = s.absenceLimit := rfl
@[simp] theorem State.abortDiscarded_profile (k : Nat) (r : Word32) : (s.abortDiscarded k r).profile = s.profile := rfl

end

/-! ### A state under RESET -/

/-- With RESET released a command is taken. -/
@[simp] theorem State.unlessHeld_released {s : State} (t : State) (h : s.pins.resetLow = false) : s.unlessHeld t = t := by
  simp [State.unlessHeld, h]

/-- With RESET low a command changes nothing. -/
theorem State.unlessHeld_held {s : State} (t : State) (h : s.pins.resetLow = true) : s.unlessHeld t = s := by
  simp [State.unlessHeld, h]

end Sys2Proof.Machine
end

