-- ==== Sys2Proof/Laws/Control.lean ====
section
/-! SUPPORT. What the operations of `Machine/Control.lean` leave in every block: clearings, exits to LISTENING, ENABLE,
DISABLE and the resets. -/

namespace Sys2Proof.Machine

/-! ### Clearing of a block -/

@[simp] theorem Cmu.clearStream_clearStream (c : Cmu) : c.clearStream.clearStream = c.clearStream := rfl
@[simp] theorem Cmu.clearStream_lastHeard (c : Cmu) : c.clearStream.lastHeard = c.lastHeard := rfl
@[simp] theorem Cmu.clearStream_foundReported (c : Cmu) : c.clearStream.foundReported = c.foundReported := rfl
@[simp] theorem Cmu.clearStream_ownMark (c : Cmu) : c.clearStream.ownMark = none := rfl
@[simp] theorem Cmu.clearStream_waiting (c : Cmu) : c.clearStream.waiting = none := rfl
@[simp] theorem Xfu.release_release (x : Xfu) : x.release.release = x.release := rfl
@[simp] theorem Xfu.release_phase (x : Xfu) : x.release.phase = x.phase := rfl
@[simp] theorem Xfu.release_plan (x : Xfu) : x.release.plan = none := rfl
@[simp] theorem Xfu.release_stall (x : Xfu) : x.release.stall = x.stall := rfl
@[simp] theorem Xfu.release_catchup (x : Xfu) : x.release.catchup = x.catchup := rfl

/-- With the flag set the tracker is kept at entry to LISTENING (R98). -/
theorem Trk.enterListening_aligned {t : Trk} (h : t.aligned = true) : t.enterListening = { t with window := none } := by
  simp [Trk.enterListening, h]

/-- With the flag clear the tracker holds no turn at entry to LISTENING, and the window starts (R98, R99). -/
theorem Trk.enterListening_unaligned {t : Trk} (h : t.aligned = false) :
    t.enterListening = { t with holder := none, phase := .idle, window := some 0 } := by
  simp [Trk.enterListening, h, Trk.startWindow]

@[simp] theorem Trk.enterListening_rotation (t : Trk) : t.enterListening.rotation = t.rotation := by
  unfold Trk.enterListening; split <;> rfl
@[simp] theorem Trk.enterListening_is_aligned (t : Trk) : t.enterListening.aligned = t.aligned := by
  unfold Trk.enterListening; split <;> rfl
@[simp] theorem Trk.enterListening_skipTimer (t : Trk) : t.enterListening.skipTimer = t.skipTimer := by
  unfold Trk.enterListening; split <;> rfl
@[simp] theorem Trk.enterListening_lone (t : Trk) : t.enterListening.lone = t.lone := by
  unfold Trk.enterListening; split <;> rfl

/-! ### `clearTable` (R17, R49) -/

section
variable (s : State)

@[simp] theorem State.clearTable_lif : (s.clearTable).lif = s.lif := rfl
@[simp] theorem State.clearTable_trk : (s.clearTable).trk = s.trk := rfl
@[simp] theorem State.clearTable_cmu : (s.clearTable).cmu = s.cmu := rfl
@[simp] theorem State.clearTable_tbu : (s.clearTable).tbu = Tbu.cleared := rfl
@[simp] theorem State.clearTable_rqu : (s.clearTable).rqu = s.rqu := rfl
@[simp] theorem State.clearTable_ntq : (s.clearTable).ntq = s.ntq := rfl
@[simp] theorem State.clearTable_xfu : (s.clearTable).xfu = s.xfu := rfl
@[simp] theorem State.clearTable_stc : (s.clearTable).stc = s.stc := rfl
@[simp] theorem State.clearTable_lpt : (s.clearTable).lpt = s.lpt := rfl
@[simp] theorem State.clearTable_pins : (s.clearTable).pins = s.pins := rfl
@[simp] theorem State.clearTable_clock : (s.clearTable).clock = s.clock := rfl
@[simp] theorem State.clearTable_pending : (s.clearTable).pending = s.pending := rfl
@[simp] theorem State.clearTable_number : (s.clearTable).number = s.number := rfl
@[simp] theorem State.clearTable_groupSize : (s.clearTable).groupSize = s.groupSize := rfl
@[simp] theorem State.clearTable_absenceLimit : (s.clearTable).absenceLimit = s.absenceLimit := rfl
@[simp] theorem State.clearTable_profile : (s.clearTable).profile = s.profile := rfl

end

/-! ### `clearStream` (R86) -/

section
variable (s : State)

@[simp] theorem State.clearStream_lif : (s.clearStream).lif = s.lif := rfl
@[simp] theorem State.clearStream_trk : (s.clearStream).trk = s.trk := rfl
@[simp] theorem State.clearStream_cmu : (s.clearStream).cmu = s.cmu.clearStream := rfl
@[simp] theorem State.clearStream_tbu : (s.clearStream).tbu = s.tbu := rfl
@[simp] theorem State.clearStream_rqu : (s.clearStream).rqu = s.rqu := rfl
@[simp] theorem State.clearStream_ntq : (s.clearStream).ntq = s.ntq := rfl
@[simp] theorem State.clearStream_xfu : (s.clearStream).xfu = s.xfu := rfl
@[simp] theorem State.clearStream_stc : (s.clearStream).stc = s.stc := rfl
@[simp] theorem State.clearStream_lpt : (s.clearStream).lpt = s.lpt := rfl
@[simp] theorem State.clearStream_pins : (s.clearStream).pins = s.pins := rfl
@[simp] theorem State.clearStream_clock : (s.clearStream).clock = s.clock := rfl
@[simp] theorem State.clearStream_pending : (s.clearStream).pending = s.pending := rfl
@[simp] theorem State.clearStream_number : (s.clearStream).number = s.number := rfl
@[simp] theorem State.clearStream_groupSize : (s.clearStream).groupSize = s.groupSize := rfl
@[simp] theorem State.clearStream_absenceLimit : (s.clearStream).absenceLimit = s.absenceLimit := rfl
@[simp] theorem State.clearStream_profile : (s.clearStream).profile = s.profile := rfl

end

/-! ### `releaseImage` (R138) -/

section
variable (s : State)

@[simp] theorem State.releaseImage_lif : (s.releaseImage).lif = s.lif := rfl
@[simp] theorem State.releaseImage_trk : (s.releaseImage).trk = s.trk := rfl
@[simp] theorem State.releaseImage_cmu : (s.releaseImage).cmu = s.cmu := rfl
@[simp] theorem State.releaseImage_tbu : (s.releaseImage).tbu = s.tbu := rfl
@[simp] theorem State.releaseImage_rqu : (s.releaseImage).rqu = s.rqu := rfl
@[simp] theorem State.releaseImage_ntq : (s.releaseImage).ntq = s.ntq := rfl
@[simp] theorem State.releaseImage_xfu : (s.releaseImage).xfu = s.xfu.release := rfl
@[simp] theorem State.releaseImage_stc : (s.releaseImage).stc = s.stc := rfl
@[simp] theorem State.releaseImage_lpt : (s.releaseImage).lpt = s.lpt := rfl
@[simp] theorem State.releaseImage_pins : (s.releaseImage).pins = s.pins := rfl
@[simp] theorem State.releaseImage_clock : (s.releaseImage).clock = s.clock := rfl
@[simp] theorem State.releaseImage_pending : (s.releaseImage).pending = s.pending := rfl
@[simp] theorem State.releaseImage_number : (s.releaseImage).number = s.number := rfl
@[simp] theorem State.releaseImage_groupSize : (s.releaseImage).groupSize = s.groupSize := rfl
@[simp] theorem State.releaseImage_absenceLimit : (s.releaseImage).absenceLimit = s.absenceLimit := rfl
@[simp] theorem State.releaseImage_profile : (s.releaseImage).profile = s.profile := rfl

end

/-! ### `dropPlan` (R137) -/

section
variable (s : State)

@[simp] theorem State.dropPlan_lif : (s.dropPlan).lif = s.lif := rfl
@[simp] theorem State.dropPlan_trk : (s.dropPlan).trk = s.trk := rfl
@[simp] theorem State.dropPlan_cmu : (s.dropPlan).cmu = s.cmu := rfl
@[simp] theorem State.dropPlan_tbu : (s.dropPlan).tbu = s.tbu := rfl
@[simp] theorem State.dropPlan_rqu : (s.dropPlan).rqu = s.rqu := rfl
@[simp] theorem State.dropPlan_ntq : (s.dropPlan).ntq = s.ntq := rfl
@[simp] theorem State.dropPlan_xfu : (s.dropPlan).xfu = { s.xfu with plan := none } := rfl
@[simp] theorem State.dropPlan_stc : (s.dropPlan).stc = s.stc := rfl
@[simp] theorem State.dropPlan_lpt : (s.dropPlan).lpt = s.lpt := rfl
@[simp] theorem State.dropPlan_pins : (s.dropPlan).pins = s.pins := rfl
@[simp] theorem State.dropPlan_clock : (s.dropPlan).clock = s.clock := rfl
@[simp] theorem State.dropPlan_pending : (s.dropPlan).pending = s.pending := rfl
@[simp] theorem State.dropPlan_number : (s.dropPlan).number = s.number := rfl
@[simp] theorem State.dropPlan_groupSize : (s.dropPlan).groupSize = s.groupSize := rfl
@[simp] theorem State.dropPlan_absenceLimit : (s.dropPlan).absenceLimit = s.absenceLimit := rfl
@[simp] theorem State.dropPlan_profile : (s.dropPlan).profile = s.profile := rfl

end

/-! ### `cutTransmission` (R111) -/

section
variable (s : State)

@[simp] theorem State.cutTransmission_lif : (s.cutTransmission).lif = s.lif := by unfold State.cutTransmission; split <;> rfl
@[simp] theorem State.cutTransmission_trk : (s.cutTransmission).trk = s.trk := by unfold State.cutTransmission; split <;> rfl
@[simp] theorem State.cutTransmission_cmu : (s.cutTransmission).cmu = s.cmu := by unfold State.cutTransmission; split <;> rfl
@[simp] theorem State.cutTransmission_tbu : (s.cutTransmission).tbu = s.tbu := by unfold State.cutTransmission; split <;> rfl
@[simp] theorem State.cutTransmission_rqu : (s.cutTransmission).rqu = s.rqu := by unfold State.cutTransmission; split <;> rfl
@[simp] theorem State.cutTransmission_ntq : (s.cutTransmission).ntq = s.ntq := by unfold State.cutTransmission; split <;> rfl
@[simp] theorem State.cutTransmission_xfu : (s.cutTransmission).xfu = s.xfu := by unfold State.cutTransmission; split <;> rfl
@[simp] theorem State.cutTransmission_stc : (s.cutTransmission).stc = s.stc := by unfold State.cutTransmission; split <;> rfl
@[simp] theorem State.cutTransmission_lpt : (s.cutTransmission).lpt = s.lpt := by unfold State.cutTransmission; split <;> rfl
@[simp] theorem State.cutTransmission_clock : (s.cutTransmission).clock = s.clock := by unfold State.cutTransmission; split <;> rfl
@[simp] theorem State.cutTransmission_pending : (s.cutTransmission).pending = s.pending := by unfold State.cutTransmission; split <;> rfl
@[simp] theorem State.cutTransmission_number : (s.cutTransmission).number = s.number := by unfold State.cutTransmission; split <;> rfl
@[simp] theorem State.cutTransmission_groupSize : (s.cutTransmission).groupSize = s.groupSize := by unfold State.cutTransmission; split <;> rfl
@[simp] theorem State.cutTransmission_absenceLimit : (s.cutTransmission).absenceLimit = s.absenceLimit := by unfold State.cutTransmission; split <;> rfl
@[simp] theorem State.cutTransmission_profile : (s.cutTransmission).profile = s.profile := by unfold State.cutTransmission; split <;> rfl
@[simp] theorem State.cutTransmission_resetLow : s.cutTransmission.pins.resetLow = s.pins.resetLow := by unfold State.cutTransmission; split <;> rfl

end

/-! ### `toListening` (R142) -/

section
variable (s : State)

@[simp] theorem State.toListening_lif (w : StateReason) (f : Option JoinFailure) (r : Word32) : (s.toListening w f r).lif = s.lif := rfl
@[simp] theorem State.toListening_trk (w : StateReason) (f : Option JoinFailure) (r : Word32) : (s.toListening w f r).trk = s.trk.enterListening := rfl
@[simp] theorem State.toListening_cmu (w : StateReason) (f : Option JoinFailure) (r : Word32) : (s.toListening w f r).cmu = s.cmu := rfl
@[simp] theorem State.toListening_tbu (w : StateReason) (f : Option JoinFailure) (r : Word32) : (s.toListening w f r).tbu = s.tbu := rfl
@[simp] theorem State.toListening_rqu (w : StateReason) (f : Option JoinFailure) (r : Word32) : (s.toListening w f r).rqu = s.rqu := rfl
@[simp] theorem State.toListening_ntq (w : StateReason) (f : Option JoinFailure) (r : Word32) : (s.toListening w f r).ntq = s.ntq.offer (stateNote .listening w f r) := rfl
@[simp] theorem State.toListening_xfu (w : StateReason) (f : Option JoinFailure) (r : Word32) : (s.toListening w f r).xfu = s.xfu := rfl
@[simp] theorem State.toListening_stc (w : StateReason) (f : Option JoinFailure) (r : Word32) : (s.toListening w f r).stc = { s.stc with station := .listening, leave := .idle } := rfl
@[simp] theorem State.toListening_lpt (w : StateReason) (f : Option JoinFailure) (r : Word32) : (s.toListening w f r).lpt = s.lpt := rfl
@[simp] theorem State.toListening_pins (w : StateReason) (f : Option JoinFailure) (r : Word32) : (s.toListening w f r).pins = s.pins := rfl
@[simp] theorem State.toListening_clock (w : StateReason) (f : Option JoinFailure) (r : Word32) : (s.toListening w f r).clock = s.clock := rfl
@[simp] theorem State.toListening_pending (w : StateReason) (f : Option JoinFailure) (r : Word32) : (s.toListening w f r).pending = s.pending := rfl
@[simp] theorem State.toListening_number (w : StateReason) (f : Option JoinFailure) (r : Word32) : (s.toListening w f r).number = s.number := rfl
@[simp] theorem State.toListening_groupSize (w : StateReason) (f : Option JoinFailure) (r : Word32) : (s.toListening w f r).groupSize = s.groupSize := rfl
@[simp] theorem State.toListening_absenceLimit (w : StateReason) (f : Option JoinFailure) (r : Word32) : (s.toListening w f r).absenceLimit = s.absenceLimit := rfl
@[simp] theorem State.toListening_profile (w : StateReason) (f : Option JoinFailure) (r : Word32) : (s.toListening w f r).profile = s.profile := rfl

end

/-! ### `leaveComplete` (R151) -/

section
variable (s : State)

@[simp] theorem State.leaveComplete_lif (r : Word32) : (s.leaveComplete r).lif = s.lif := rfl
@[simp] theorem State.leaveComplete_trk (r : Word32) : (s.leaveComplete r).trk = s.trk := rfl
@[simp] theorem State.leaveComplete_cmu (r : Word32) : (s.leaveComplete r).cmu = s.cmu := rfl
@[simp] theorem State.leaveComplete_tbu (r : Word32) : (s.leaveComplete r).tbu = Tbu.cleared := rfl
@[simp] theorem State.leaveComplete_rqu (r : Word32) : (s.leaveComplete r).rqu = s.rqu := rfl
@[simp] theorem State.leaveComplete_ntq (r : Word32) : (s.leaveComplete r).ntq = s.ntq.offer (stateNote .detached .left none r) := rfl
@[simp] theorem State.leaveComplete_xfu (r : Word32) : (s.leaveComplete r).xfu = s.xfu.release := rfl
@[simp] theorem State.leaveComplete_stc (r : Word32) : (s.leaveComplete r).stc = { s.stc with station := .detached, leave := .idle } := rfl
@[simp] theorem State.leaveComplete_lpt (r : Word32) : (s.leaveComplete r).lpt = s.lpt := rfl
@[simp] theorem State.leaveComplete_pins (r : Word32) : (s.leaveComplete r).pins = s.pins := rfl
@[simp] theorem State.leaveComplete_clock (r : Word32) : (s.leaveComplete r).clock = s.clock := rfl
@[simp] theorem State.leaveComplete_pending (r : Word32) : (s.leaveComplete r).pending = s.pending := rfl
@[simp] theorem State.leaveComplete_number (r : Word32) : (s.leaveComplete r).number = s.number := rfl
@[simp] theorem State.leaveComplete_groupSize (r : Word32) : (s.leaveComplete r).groupSize = s.groupSize := rfl
@[simp] theorem State.leaveComplete_absenceLimit (r : Word32) : (s.leaveComplete r).absenceLimit = s.absenceLimit := rfl
@[simp] theorem State.leaveComplete_profile (r : Word32) : (s.leaveComplete r).profile = s.profile := rfl

end

/-! ### `joinComplete` (R129) -/

section
variable (s : State)

@[simp] theorem State.joinComplete_lif (r : Word32) : (s.joinComplete r).lif = s.lif := rfl
@[simp] theorem State.joinComplete_trk (r : Word32) : (s.joinComplete r).trk = s.trk := rfl
@[simp] theorem State.joinComplete_cmu (r : Word32) : (s.joinComplete r).cmu = s.cmu := rfl
@[simp] theorem State.joinComplete_tbu (r : Word32) : (s.joinComplete r).tbu = s.tbu := rfl
@[simp] theorem State.joinComplete_rqu (r : Word32) : (s.joinComplete r).rqu = s.rqu := rfl
@[simp] theorem State.joinComplete_ntq (r : Word32) : (s.joinComplete r).ntq = s.ntq.offer (stateNote .member .member none r) := rfl
@[simp] theorem State.joinComplete_xfu (r : Word32) : (s.joinComplete r).xfu = s.xfu.clearJoiner := rfl
@[simp] theorem State.joinComplete_stc (r : Word32) : (s.joinComplete r).stc = { s.stc with station := .member } := rfl
@[simp] theorem State.joinComplete_lpt (r : Word32) : (s.joinComplete r).lpt = s.lpt := rfl
@[simp] theorem State.joinComplete_pins (r : Word32) : (s.joinComplete r).pins = s.pins := rfl
@[simp] theorem State.joinComplete_clock (r : Word32) : (s.joinComplete r).clock = s.clock := rfl
@[simp] theorem State.joinComplete_pending (r : Word32) : (s.joinComplete r).pending = s.pending := rfl
@[simp] theorem State.joinComplete_number (r : Word32) : (s.joinComplete r).number = s.number := rfl
@[simp] theorem State.joinComplete_groupSize (r : Word32) : (s.joinComplete r).groupSize = s.groupSize := rfl
@[simp] theorem State.joinComplete_absenceLimit (r : Word32) : (s.joinComplete r).absenceLimit = s.absenceLimit := rfl
@[simp] theorem State.joinComplete_profile (r : Word32) : (s.joinComplete r).profile = s.profile := rfl

end

/-! ### `joinFail` (R132) -/

section
variable (s : State)

@[simp] theorem State.joinFail_lif (f : JoinFailure) (r : Word32) : (s.joinFail f r).lif = s.lif := rfl
@[simp] theorem State.joinFail_trk (f : JoinFailure) (r : Word32) : (s.joinFail f r).trk = s.trk.enterListening := rfl
@[simp] theorem State.joinFail_cmu (f : JoinFailure) (r : Word32) : (s.joinFail f r).cmu = s.cmu.clearStream := rfl
@[simp] theorem State.joinFail_tbu (f : JoinFailure) (r : Word32) : (s.joinFail f r).tbu = Tbu.cleared := rfl
@[simp] theorem State.joinFail_rqu (f : JoinFailure) (r : Word32) : (s.joinFail f r).rqu = s.rqu := rfl
@[simp] theorem State.joinFail_ntq (f : JoinFailure) (r : Word32) : (s.joinFail f r).ntq = s.ntq.offer (stateNote .listening .joinFailed (some f) r) := rfl
@[simp] theorem State.joinFail_xfu (f : JoinFailure) (r : Word32) : (s.joinFail f r).xfu = s.xfu.clearJoiner := rfl
@[simp] theorem State.joinFail_stc (f : JoinFailure) (r : Word32) : (s.joinFail f r).stc = { s.stc with station := .listening, leave := .idle } := rfl
@[simp] theorem State.joinFail_lpt (f : JoinFailure) (r : Word32) : (s.joinFail f r).lpt = s.lpt := rfl
@[simp] theorem State.joinFail_pins (f : JoinFailure) (r : Word32) : (s.joinFail f r).pins = s.pins := rfl
@[simp] theorem State.joinFail_clock (f : JoinFailure) (r : Word32) : (s.joinFail f r).clock = s.clock := rfl
@[simp] theorem State.joinFail_pending (f : JoinFailure) (r : Word32) : (s.joinFail f r).pending = s.pending := rfl
@[simp] theorem State.joinFail_number (f : JoinFailure) (r : Word32) : (s.joinFail f r).number = s.number := rfl
@[simp] theorem State.joinFail_groupSize (f : JoinFailure) (r : Word32) : (s.joinFail f r).groupSize = s.groupSize := rfl
@[simp] theorem State.joinFail_absenceLimit (f : JoinFailure) (r : Word32) : (s.joinFail f r).absenceLimit = s.absenceLimit := rfl
@[simp] theorem State.joinFail_profile (f : JoinFailure) (r : Word32) : (s.joinFail f r).profile = s.profile := rfl

end

/-! ### `absentExit` (R153) -/

section
variable (s : State)

@[simp] theorem State.absentExit_lif (r : Word32) : (s.absentExit r).lif = s.lif := by simp [State.absentExit]
@[simp] theorem State.absentExit_trk (r : Word32) : (s.absentExit r).trk = s.trk.enterListening := by simp [State.absentExit]
@[simp] theorem State.absentExit_cmu (r : Word32) : (s.absentExit r).cmu = s.cmu := by simp [State.absentExit]
@[simp] theorem State.absentExit_tbu (r : Word32) : (s.absentExit r).tbu = Tbu.cleared := by simp [State.absentExit]
@[simp] theorem State.absentExit_xfu (r : Word32) : (s.absentExit r).xfu = s.xfu.release := by simp [State.absentExit]
@[simp] theorem State.absentExit_stc (r : Word32) : (s.absentExit r).stc = { s.stc with station := .listening, leave := .idle } := by simp [State.absentExit]
@[simp] theorem State.absentExit_lpt (r : Word32) : (s.absentExit r).lpt = s.lpt := by simp [State.absentExit]
@[simp] theorem State.absentExit_pins (r : Word32) : (s.absentExit r).pins = s.pins := by simp [State.absentExit]
@[simp] theorem State.absentExit_clock (r : Word32) : (s.absentExit r).clock = s.clock := by simp [State.absentExit]
@[simp] theorem State.absentExit_pending (r : Word32) : (s.absentExit r).pending = s.pending := by simp [State.absentExit]
@[simp] theorem State.absentExit_number (r : Word32) : (s.absentExit r).number = s.number := by simp [State.absentExit]
@[simp] theorem State.absentExit_groupSize (r : Word32) : (s.absentExit r).groupSize = s.groupSize := by simp [State.absentExit]
@[simp] theorem State.absentExit_absenceLimit (r : Word32) : (s.absentExit r).absenceLimit = s.absenceLimit := by simp [State.absentExit]
@[simp] theorem State.absentExit_profile (r : Word32) : (s.absentExit r).profile = s.profile := by simp [State.absentExit]
@[simp] theorem State.absentExit_rqu (r : Word32) : (s.absentExit r).rqu
    = { outgoing := [], inflight := [], carrier := none, live := dropTags (s.rqu.inflight ++ s.rqu.outgoing) s.rqu.live } := by
  simp [State.absentExit]
@[simp] theorem State.absentExit_ntq (r : Word32) : (s.absentExit r).ntq
    = (((s.rqu.inflight ++ s.rqu.outgoing).map (requestNote .aborted s.trk.rotation)).foldl Ntq.offer s.ntq).offer
      (stateNote .listening .absent none r) := by
  simp [State.absentExit]

end

/-! ### `divergedExit` (R152) -/

section
variable (s : State)

@[simp] theorem State.divergedExit_lif : (s.divergedExit).lif = s.lif := by simp [State.divergedExit]
@[simp] theorem State.divergedExit_trk : (s.divergedExit).trk = s.trk.enterListening := by simp [State.divergedExit]
@[simp] theorem State.divergedExit_cmu : (s.divergedExit).cmu = s.cmu := by simp [State.divergedExit]
@[simp] theorem State.divergedExit_tbu : (s.divergedExit).tbu = Tbu.cleared := by simp [State.divergedExit]
@[simp] theorem State.divergedExit_xfu : (s.divergedExit).xfu = s.xfu.release := by simp [State.divergedExit]
@[simp] theorem State.divergedExit_stc : (s.divergedExit).stc = { s.stc with station := .listening, leave := .idle } := by simp [State.divergedExit]
@[simp] theorem State.divergedExit_lpt : (s.divergedExit).lpt = s.lpt := by simp [State.divergedExit]
@[simp] theorem State.divergedExit_pins : (s.divergedExit).pins = s.pins := by simp [State.divergedExit]
@[simp] theorem State.divergedExit_clock : (s.divergedExit).clock = s.clock := by simp [State.divergedExit]
@[simp] theorem State.divergedExit_pending : (s.divergedExit).pending = s.pending := by simp [State.divergedExit]
@[simp] theorem State.divergedExit_number : (s.divergedExit).number = s.number := by simp [State.divergedExit]
@[simp] theorem State.divergedExit_groupSize : (s.divergedExit).groupSize = s.groupSize := by simp [State.divergedExit]
@[simp] theorem State.divergedExit_absenceLimit : (s.divergedExit).absenceLimit = s.absenceLimit := by simp [State.divergedExit]
@[simp] theorem State.divergedExit_profile : (s.divergedExit).profile = s.profile := by simp [State.divergedExit]
@[simp] theorem State.divergedExit_rqu : (s.divergedExit).rqu
    = { outgoing := [], inflight := [], carrier := none, live := dropTags (s.rqu.inflight ++ s.rqu.outgoing) s.rqu.live } := by
  simp [State.divergedExit]
@[simp] theorem State.divergedExit_ntq : (s.divergedExit).ntq
    = (((s.rqu.inflight ++ s.rqu.outgoing).map (requestNote .aborted s.trk.rotation)).foldl Ntq.offer s.ntq).offer
      (stateNote .listening .diverged none s.trk.rotation) := by
  simp [State.divergedExit]

end

/-! ### `foundVoidedExit` (R146) -/

section
variable (s : State)

@[simp] theorem State.foundVoidedExit_lif : (s.foundVoidedExit).lif = s.lif := by simp [State.foundVoidedExit]
@[simp] theorem State.foundVoidedExit_trk : (s.foundVoidedExit).trk = s.trk.enterListening := by simp [State.foundVoidedExit]
@[simp] theorem State.foundVoidedExit_cmu : (s.foundVoidedExit).cmu = s.cmu.clearStream := by simp [State.foundVoidedExit]
@[simp] theorem State.foundVoidedExit_tbu : (s.foundVoidedExit).tbu = Tbu.cleared := by simp [State.foundVoidedExit]
@[simp] theorem State.foundVoidedExit_xfu : (s.foundVoidedExit).xfu = s.xfu.release := by simp [State.foundVoidedExit]
@[simp] theorem State.foundVoidedExit_stc : (s.foundVoidedExit).stc = { s.stc with station := .listening, leave := .idle } := by simp [State.foundVoidedExit]
@[simp] theorem State.foundVoidedExit_lpt : (s.foundVoidedExit).lpt = s.lpt := by simp [State.foundVoidedExit]
@[simp] theorem State.foundVoidedExit_pins : (s.foundVoidedExit).pins = s.pins := by simp [State.foundVoidedExit]
@[simp] theorem State.foundVoidedExit_clock : (s.foundVoidedExit).clock = s.clock := by simp [State.foundVoidedExit]
@[simp] theorem State.foundVoidedExit_pending : (s.foundVoidedExit).pending = s.pending := by simp [State.foundVoidedExit]
@[simp] theorem State.foundVoidedExit_number : (s.foundVoidedExit).number = s.number := by simp [State.foundVoidedExit]
@[simp] theorem State.foundVoidedExit_groupSize : (s.foundVoidedExit).groupSize = s.groupSize := by simp [State.foundVoidedExit]
@[simp] theorem State.foundVoidedExit_absenceLimit : (s.foundVoidedExit).absenceLimit = s.absenceLimit := by simp [State.foundVoidedExit]
@[simp] theorem State.foundVoidedExit_profile : (s.foundVoidedExit).profile = s.profile := by simp [State.foundVoidedExit]
@[simp] theorem State.foundVoidedExit_rqu : (s.foundVoidedExit).rqu
    = { s.rqu with outgoing := [], live := dropTags s.rqu.outgoing s.rqu.live } := by
  simp [State.foundVoidedExit]
@[simp] theorem State.foundVoidedExit_ntq : (s.foundVoidedExit).ntq
    = ((s.rqu.outgoing.map (requestNote .aborted s.trk.rotation)).foldl Ntq.offer s.ntq).offer
      (stateNote .listening .absent none s.trk.rotation) := by
  simp [State.foundVoidedExit]

end

end Sys2Proof.Machine
end

