-- ==== Sys2Proof/Laws/Commit.lean ====
section
/-! SUPPORT. What the Commit Unit's operations do: how an echo resolves, what an application leaves outside the Transfer
Unit, and which states resolve. -/

namespace Sys2Proof.Machine

/-! ### Resolution by echo (R70 to R73) -/

/-- A confirming frame commits P (R70). -/
theorem Cmu.resolution_of_confirms {c : Cmu} {p g : StreamFrame} (h : Confirms c p g) : c.resolution g = .commit p := by
  obtain ⟨h1, h2, h3⟩ := h
  have hr : g.echo = some p.ref := h2
  simp only [Cmu.resolution, h1, hr, if_true]
  rcases h3 with h3 | h3 <;> simp [h3, checkAgrees, foldCheck]

/-- A frame that names L voids P and the holes (R71). -/
theorem Cmu.resolution_of_denies {c : Cmu} {g : StreamFrame} (h : Denies c g) : c.resolution g = .void := by
  obtain ⟨h1, h2, h3⟩ := h
  have hl : c.resolutionByLast g = .void := by
    simp only [Cmu.resolutionByLast, if_pos h2]
    rcases h3 with h3 | h3 <;> simp [h3, checkAgrees]
  unfold Cmu.resolution
  split
  · rename_i p hp
    rw [if_neg (show ¬ g.echo = some p.ref from h1 p hp), hl]
  · exact hl

/-- A frame with an unknown echo is discordant, or reveals divergence when a hole is pending (R72). -/
theorem Cmu.resolution_of_unknown {c : Cmu} {g : StreamFrame} (h : NamesUnknown c g) :
    c.resolution g = if c.holes = 0 then .discordant else .diverged := by
  obtain ⟨h1, h2⟩ := h
  have hl : c.resolutionByLast g = if c.holes = 0 then .discordant else .diverged := by
    simp only [Cmu.resolutionByLast, if_neg h2]
  unfold Cmu.resolution
  split
  · rename_i p hp
    rw [if_neg (show ¬ g.echo = some p.ref from h1 p hp), hl]
  · exact hl

/-- A discordant frame, by its stream check or by an unknown echo with no hole pending (R72, R73). -/
theorem Cmu.resolution_of_discordant {c : Cmu} {g : StreamFrame} (h : IsDiscordant c g) : c.resolution g = .discordant := by
  rcases h with (⟨p, v, h1, h2, h3, h4⟩ | ⟨h1, h2, v, h3, h4⟩) | ⟨h, h0⟩
  · have hr : g.echo = some p.ref := h2
    simp only [Cmu.resolution, h1, hr, if_true]
    simp [h3, checkAgrees, foldCheck, h4]
  · have hl : c.resolutionByLast g = .discordant := by simp [Cmu.resolutionByLast, h2, h3, checkAgrees, h4]
    unfold Cmu.resolution
    split
    · rename_i p hp
      rw [if_neg (show ¬ g.echo = some p.ref from h1 p hp), hl]
    · exact hl
  · rw [Cmu.resolution_of_unknown h, if_pos h0]

/-- G as the new P, with last heard already taken from it (R68, R75). -/
theorem Cmu.clean_eq (s : State) (c : Cmu) (g : StreamFrame) :
    ({ c with lastHeard := some ⟨⟨g.rotation, g.sender⟩, g.check⟩ } : Cmu).clean g (decide (g.sender = s.number))
      = resolvedBy s c g := by
  by_cases h : g.sender = s.number <;> by_cases hb : g.kind = .member ∧ g.ops = [] <;>
    simp_all [Cmu.clean, resolvedBy, StreamFrame.isBare, StreamFrame.id]

/-! ### Replicas (R67) -/

theorem State.isReplica_of_member {s : State} (h : s.stc.station = .member) : s.isReplica = true := by
  simp [State.isReplica, h]

theorem State.isReplica_of_leaving {s : State} (h : s.stc.station = .leaving) : s.isReplica = true := by
  simp [State.isReplica, h]

/-- The stations that resolve: MEMBER, LEAVING, and LOADING in replay or after it (R67). -/
theorem State.isReplica_cases {s : State} (h : s.isReplica = true) :
    s.stc.station = .member ∨ s.stc.station = .leaving
      ∨ (s.stc.station = .loading ∧ (s.xfu.phase = .replaying ∨ s.xfu.phase = .confirming)) := by
  unfold State.isReplica at h
  split at h <;> simp_all

/-! ### The image at the end of an application (R53, R133, R138) -/

section
variable (s : State) (p : StreamFrame) (b : Bool)

@[simp] theorem State.syncImage_lif : (s.syncImage p b).lif = s.lif := by
  unfold State.syncImage State.captureImage; repeat' split
  all_goals simp
@[simp] theorem State.syncImage_trk : (s.syncImage p b).trk = s.trk := by
  unfold State.syncImage State.captureImage; repeat' split
  all_goals simp
@[simp] theorem State.syncImage_cmu : (s.syncImage p b).cmu = s.cmu := by
  unfold State.syncImage State.captureImage; repeat' split
  all_goals simp
@[simp] theorem State.syncImage_tbu : (s.syncImage p b).tbu = s.tbu := by
  unfold State.syncImage State.captureImage; repeat' split
  all_goals simp
@[simp] theorem State.syncImage_rqu : (s.syncImage p b).rqu = s.rqu := by
  unfold State.syncImage State.captureImage; repeat' split
  all_goals simp
@[simp] theorem State.syncImage_ntq : (s.syncImage p b).ntq = s.ntq := by
  unfold State.syncImage State.captureImage; repeat' split
  all_goals simp
@[simp] theorem State.syncImage_stc : (s.syncImage p b).stc = s.stc := by
  unfold State.syncImage State.captureImage; repeat' split
  all_goals simp
@[simp] theorem State.syncImage_lpt : (s.syncImage p b).lpt = s.lpt := by
  unfold State.syncImage State.captureImage; repeat' split
  all_goals simp
@[simp] theorem State.syncImage_pins : (s.syncImage p b).pins = s.pins := by
  unfold State.syncImage State.captureImage; repeat' split
  all_goals simp
@[simp] theorem State.syncImage_clock : (s.syncImage p b).clock = s.clock := by
  unfold State.syncImage State.captureImage; repeat' split
  all_goals simp
@[simp] theorem State.syncImage_pending : (s.syncImage p b).pending = s.pending := by
  unfold State.syncImage State.captureImage; repeat' split
  all_goals simp
@[simp] theorem State.syncImage_number : (s.syncImage p b).number = s.number := by
  unfold State.syncImage State.captureImage; repeat' split
  all_goals simp
@[simp] theorem State.syncImage_groupSize : (s.syncImage p b).groupSize = s.groupSize := by
  unfold State.syncImage State.captureImage; repeat' split
  all_goals simp
@[simp] theorem State.syncImage_absenceLimit : (s.syncImage p b).absenceLimit = s.absenceLimit := by
  unfold State.syncImage State.captureImage; repeat' split
  all_goals simp
@[simp] theorem State.syncImage_phase : (s.syncImage p b).xfu.phase = s.xfu.phase := by
  unfold State.syncImage State.captureImage; repeat' split
  all_goals simp

/-- An application leaves no serving plan where there was none. -/
theorem State.syncImage_plan (h : s.xfu.plan = none) : (s.syncImage p b).xfu.plan = none := by
  unfold State.syncImage State.captureImage; repeat' split
  all_goals simp [h]

/-- The donor side apart, an application leaves the Transfer Unit as it was. -/
theorem State.syncImage_release : (s.syncImage p b).xfu.release = s.xfu.release := by
  unfold State.syncImage State.captureImage; repeat' split
  all_goals simp [Xfu.release]

end

/-- A JOIN names only a MEMBER as its donor (R52). -/
theorem State.namedDonor_member {s : State} {p : StreamFrame} {t : Tbu} (h : s.namedDonor p t = true) :
    (t.entry s.number).isMember = true := by
  simp only [State.namedDonor, Bool.and_eq_true, decide_eq_true_eq] at h
  have := h.2
  unfold Tbu.joinDonor at this
  split at this
  · cases this
  · simpa using List.find?_some this

/-- The Transfer Unit at the end of an application, in a state that holds its table with P folded into C and made L (R53,
R133, R138). -/
theorem State.syncImage_xfu {s t : State} {p : StreamFrame} (h1 : t.tbu = (application s p).tbu)
    (h2 : t.number = s.number) (h3 : t.groupSize = s.groupSize)
    (h4 : t.cmu.check = crc (bytes32 s.cmu.check ++ bytes32 p.check)) (h5 : t.cmu.last = some p.ref) :
    (t.syncImage p (t.namedDonor p (boundedTable s p).tbu)).xfu = donorAfter s p t.xfu := by
  have hi : (application s p).tbu.imageItems s.groupSize t.cmu.check (t.cmu.last.getD p.ref) = capturedItems s p := by
    rw [h4, h5]; rfl
  simp only [State.syncImage, State.namedDonor, donorAfter, h2, h3, h1, State.captureImage, hi]
  by_cases hj : p.kind = .join ∧ (boundedTable s p).tbu.joinDonor s.groupSize p.sender = some s.number
  · simp [hj.1, hj.2]
  · simp only [if_neg hj]
    have : (decide (p.kind = .join) && decide ((boundedTable s p).tbu.joinDonor s.groupSize p.sender = some s.number))
        = false := by simpa using hj
    rw [if_neg (by simp [this])]
    split <;> simp [State.releaseImage, Xfu.release]

/-! ### What the donor reads (R134) -/

/-- The donor's reading of a stream frame (R134). -/
theorem Xfu.readRequest_eq (x : Xfu) (g : StreamFrame) : x.readRequest g = servedXfu x g := by
  obtain ⟨phase, joinMark, catchup, snapshot, map, total, wanted, stall, image, joinerWanted, plan⟩ := x
  cases image with
  | none => rfl
  | some img =>
    simp only [Xfu.readRequest, servedXfu, wantedAfter]
    by_cases h : g.sender = img.joiner <;> by_cases hk : g.kind = .loading <;> by_cases hr : g.kind = .ready <;>
      simp [h, hk, hr]

/-- Reading a request changes the joiner's request alone, and nothing without an image. -/
theorem Xfu.readRequest_cases (x : Xfu) (g : StreamFrame) :
    (∃ k, x.readRequest g = { x with joinerWanted := k }) ∧ (x.image = none → x.readRequest g = x) := by
  unfold Xfu.readRequest
  split
  · exact ⟨⟨x.joinerWanted, rfl⟩, fun _ => rfl⟩
  · rename_i img h
    refine ⟨?_, fun e => by simp [h] at e⟩
    repeat' split
    all_goals exact ⟨_, rfl⟩

end Sys2Proof.Machine
end

