-- ==== Sys2Proof/Laws/Delivery.lean ====
section
/-! SUPPORT. Deliveries and starts taken apart: what reaches the Commit Unit and the Transfer Unit behind the tracker when a
stream frame, a transfer frame or a fault is delivered, and the frame that a replica starts. -/

namespace Sys2Proof.Machine

/-! ### Counting rotations (R90, R122) -/

/-- Counting rotations changes the stall count alone (R122). -/
theorem Xfu.advance_eq (x : Xfu) (k : Nat) : ∃ n, x.advance k = { x with stall := n } := by
  unfold Xfu.advance
  split
  · exact ⟨_, rfl⟩
  · exact ⟨x.stall, rfl⟩

/-- Outside AWAITING and GATHERING no rotation is counted (R122). -/
theorem Xfu.advance_other {x : Xfu} (k : Nat) (h1 : x.phase ≠ .awaiting) (h2 : x.phase ≠ .gathering) : x.advance k = x := by
  simp [Xfu.advance, h1, h2]

/-- Outside AWAITING and GATHERING the stall count stands. -/
theorem stallAfter_other {s : State} (h : Nat) (r : Word32) (b : Bool) (h1 : s.xfu.phase ≠ .awaiting)
    (h2 : s.xfu.phase ≠ .gathering) : stallAfter s h r b = s.xfu.stall := by
  simp [stallAfter, h1, h2]

/-! ### What TRK makes of a valid frame (R89 to R91) -/

/-- Adoption and the passing of the turn at its end, from the tracker that has seen the item's end. -/
theorem State.adopt_pass (s : State) (h : Nat) (r : Word32) (n : Nat) (more passes : Bool) :
    (if passes then ((s.setTrk (s.trk.itemEnded s.lif.item.endAt)).adopt h r n more).passTurn
      else (s.setTrk (s.trk.itemEnded s.lif.item.endAt)).adopt h r n more)
      = (s.setTrk (adoptedFrom s h r n more passes)).setXfu { s.xfu with
          stall := stallAfter s h r passes, plan := if h = s.number ∧ passes = false then s.xfu.plan else none } := by
  have base : ((s.setTrk (s.trk.itemEnded s.lif.item.endAt)).adopt h r n more)
      = (s.setTrk (adoptedFrom s h r n more false)).setXfu
          { s.xfu.advance (advanceOf r s.trk.rotation) with plan := if h = s.number then s.xfu.plan else none } := by
    have e : (s.setTrk (s.trk.itemEnded s.lif.item.endAt)).number = s.number := rfl
    simp only [State.adopt, e]
    by_cases hs : h = s.number
    · apply State.ext_blocks <;> simp [hs, adoptedFrom, Trk.itemEnded, Config.itemQuiet]
      obtain ⟨k, hk⟩ := s.xfu.advance_eq (advanceOf r s.trk.rotation)
      simp [hk]
    · apply State.ext_blocks <;> simp [hs, adoptedFrom, Trk.itemEnded, Config.itemQuiet, State.dropPlan]
  cases passes with
  | false =>
    rw [if_neg (by simp), base]
    apply State.ext_blocks <;> simp
    by_cases hp : s.xfu.phase = .awaiting ∨ s.xfu.phase = .gathering <;>
      simp [Xfu.advance, stallAfter, advanceOf, Config.stallLimit, hp]
  | true =>
    rw [if_pos rfl, base]
    have hh : ((s.setTrk (adoptedFrom s h r n more false)).setXfu
        { s.xfu.advance (advanceOf r s.trk.rotation) with plan := if h = s.number then s.xfu.plan else none }).trk.holder
        = some h := rfl
    simp only [State.passTurn, hh, State.passFrom]
    apply State.ext_blocks <;> simp [State.dropPlan]
    · by_cases hw : h + 1 < s.groupSize <;>
        simp [adoptedFrom, passedTrk, nextStation, rotationAfter, hw]
    · by_cases hp : s.xfu.phase = .awaiting ∨ s.xfu.phase = .gathering <;> by_cases hw : h + 1 < s.groupSize <;>
        simp [Xfu.advance, stallAfter, advanceOf, Config.stallLimit, hp, hw, Nat.not_le.mpr, Nat.not_lt.mp, Nat.add_assoc]
      all_goals split <;> omega

/-- TRK takes a stream frame that it adopts (R89, R91). -/
theorem State.trackItem_stream {s : State} {g : StreamFrame} (own : Bool) (hk : g.kind ≠ .found) :
    s.trackItem (.stream g) own = (s.setTrk (adoptedTrk s g)).setXfu (adoptedXfu s g) := by
  have := s.adopt_pass g.sender g.rotation 0 g.moreFollows (!g.moreFollows)
  simp only [State.trackItem, hk, decide_false, Bool.false_and, State.trackStream]
  cases hm : g.moreFollows <;> simp_all [adoptedTrk, adoptedXfu]

/-- TRK takes a transfer frame (R89, R91). -/
theorem State.trackItem_transfer (s : State) (t : TransferFrame) (own : Bool) :
    s.trackItem (.transfer t) own = (s.setTrk (transferTrk s t)).setXfu { s.xfu with
      stall := stallAfter s t.sender t.donorRotation (transferPasses s t)
      plan := if t.sender = s.number ∧ transferPasses s t = false then s.xfu.plan else none } := by
  have := s.adopt_pass t.sender t.donorRotation (transferCount s t) t.moreFollows (transferPasses s t)
  rw [transferTrk, ← this]
  have hc : (if (s.setTrk (s.trk.itemEnded s.lif.item.endAt)).trk.holder = some t.sender
      then (s.setTrk (s.trk.itemEnded s.lif.item.endAt)).trk.transfers + 1 else 1) = transferCount s t := rfl
  simp only [State.trackItem, State.trackTransfer, hc]
  cases hm : (t.moreFollows && decide (transferCount s t < Config.transfersPerTurn)) <;>
    simp_all [transferPasses, Config.transfersPerTurn]

/-! ### Items delivered (R105) -/

/-- The station with a valid stream frame taken by LIF and TRK, and not yet by CMU (R105). -/
def State.adopted (s : State) (g : StreamFrame) : State :=
  ((s.setTrk (adoptedTrk s g)).setXfu (adoptedXfu s g)).setLif (deliveredLif s.lif)

section
variable (s : State) (g : StreamFrame)

@[simp] theorem State.adopted_lif : (s.adopted g).lif = deliveredLif s.lif := rfl
@[simp] theorem State.adopted_trk : (s.adopted g).trk = adoptedTrk s g := rfl
@[simp] theorem State.adopted_cmu : (s.adopted g).cmu = s.cmu := rfl
@[simp] theorem State.adopted_tbu : (s.adopted g).tbu = s.tbu := rfl
@[simp] theorem State.adopted_rqu : (s.adopted g).rqu = s.rqu := rfl
@[simp] theorem State.adopted_ntq : (s.adopted g).ntq = s.ntq := rfl
@[simp] theorem State.adopted_xfu : (s.adopted g).xfu = adoptedXfu s g := rfl
@[simp] theorem State.adopted_stc : (s.adopted g).stc = s.stc := rfl
@[simp] theorem State.adopted_lpt : (s.adopted g).lpt = s.lpt := rfl
@[simp] theorem State.adopted_pins : (s.adopted g).pins = s.pins := rfl
@[simp] theorem State.adopted_clock : (s.adopted g).clock = s.clock := rfl
@[simp] theorem State.adopted_pending : (s.adopted g).pending = s.pending := rfl
@[simp] theorem State.adopted_number : (s.adopted g).number = s.number := rfl
@[simp] theorem State.adopted_groupSize : (s.adopted g).groupSize = s.groupSize := rfl
@[simp] theorem State.adopted_absenceLimit : (s.adopted g).absenceLimit = s.absenceLimit := rfl
@[simp] theorem adoptedXfu_phase : (adoptedXfu s g).phase = s.xfu.phase := rfl
@[simp] theorem adoptedXfu_image : (adoptedXfu s g).image = s.xfu.image := rfl

end

/-- ITEM_DELIVERY of a valid stream frame other than a FOUND: LIF and TRK first, then CMU, then XFU (R105). -/
theorem execItemDelivery_stream {s : State} {g : StreamFrame} (hd : DeliversStream s g) :
    execItemDelivery s = .next
      (((s.adopted g).cmuItem (.stream g) (decide (g.sender = s.number)) s.ownSent s.trk.rotation).xfuItem (.stream g)
        (decide (g.sender = s.number)) s.ownSent) := by
  obtain ⟨hk, ⟨⟨h1, h2, h3, h4⟩, hs⟩ | ⟨f, ⟨h1, h2, h3, -, h4⟩, hs⟩⟩ := hd <;>
    simp only [execItemDelivery, State.unlessHeld_released _ h1, h2, if_true] <;>
    congr 1 <;>
    simp only [State.deliver, h4, h3, State.lifReport, State.trackItem_stream _ hk] <;>
    simp [State.leaveLoopback, Heard.isFault, hs] <;>
    rfl

/-- ITEM_DELIVERY of another station's transfer frame (R105). -/
theorem execItemDelivery_transfer {s : State} {t : TransferFrame} (hd : Delivers s (.transfer t)) :
    execItemDelivery s = .next
      (((((s.setTrk (transferTrk s t)).setXfu { s.xfu with
          stall := stallAfter s t.sender t.donorRotation (transferPasses s t)
          plan := if t.sender = s.number ∧ transferPasses s t = false then s.xfu.plan else none }).setLif
        (deliveredLif s.lif)).cmuItem (.transfer t) false none s.trk.rotation).xfuItem (.transfer t) false none) := by
  obtain ⟨h1, h2, h3, h4⟩ := hd
  simp only [execItemDelivery, State.unlessHeld_released _ h1, h2, if_true]
  congr 1
  simp only [State.deliver, h4, h3, State.ownSent, State.lifReport, State.trackItem_transfer]
  simp [State.leaveLoopback, Heard.isFault]
  rfl

/-- LIF's own reports: the flags and the FOREIGN records (R107, R108). -/
theorem State.lifReport_eq (s : State) (h : Heard) :
    s.lifReport h = (s.setLif { s.lif with
        profileReported := (reportedLif s.lif h).profileReported
        duplicateReported := (reportedLif s.lif h).duplicateReported }).setNtq
      ((foreignRecords s h).foldl Ntq.offer s.ntq) := by
  cases h with
  | profile p =>
    unfold State.lifReport foreignRecords reportedLif
    by_cases hr : s.lif.profileReported = true
    · simp only [hr, if_true]
      apply State.ext_blocks <;> simp
      rw [← hr]
    · simp only [Bool.not_eq_true] at hr
      simp only [hr]
      rfl
  | duplicate =>
    unfold State.lifReport foreignRecords reportedLif
    by_cases hr : s.lif.duplicateReported = true
    · simp only [hr, if_true]
      apply State.ext_blocks <;> simp
      rw [← hr]
    · simp only [Bool.not_eq_true] at hr
      simp only [hr]
      rfl
  | stream f => rfl
  | transfer t => rfl
  | fault => rfl

/-- ITEM_DELIVERY of a fault of any kind that is none of the station's own: LIF's report, TRK, CMU, XFU (R69, R105). -/
theorem execItemDelivery_fault {s : State} {h : Heard} (hd : Delivers s h) (hf : h.isFault = true) :
    execItemDelivery s = .next
      (((((s.lifReport h).trackItem h false).itemTaken).cmuItem h false none s.trk.rotation).xfuItem h false none) := by
  obtain ⟨h1, h2, h3, h4⟩ := hd
  simp only [execItemDelivery, State.unlessHeld_released _ h1, h2, if_true]
  congr 1
  simp only [State.deliver, h4, h3, State.ownSent]
  cases h <;> simp_all [State.leaveLoopback, Heard.isFault]

/-! ### Faults (R69, R91, R96) -/

/-- A fault ends a turn at this station: TRK follows turns (R91), and the station is not FOUNDING (R100). -/
def State.faultEndsTurn (s : State) : Prop :=
  s.stc.station ≠ .halted ∧ s.stc.station ≠ .founding ∧ (s.stc.station = .listening → s.trk.aligned = true)

/-- TRK takes a fault as the end of a turn (R91). -/
theorem State.trackFault_eq {s : State} (h : s.faultEndsTurn) : s.trackFault = s.faultTurn := by
  obtain ⟨h1, h2, h3⟩ := h
  unfold State.trackFault
  split <;> simp_all

/-- What the end of a turn by a fault leaves in TRK and in the stall count (R88, R91, R96, R122). -/
theorem State.faultTurn_eq (s : State) :
    (s.setTrk (s.trk.itemEnded s.lif.item.endAt)).faultTurn = (s.setTrk (faultTrk s)).setXfu (faultXfu s) := by
  unfold State.faultTurn faultTrk faultXfu faultPasses
  by_cases hp : s.trk.phase = .waiting
  · simp [hp, Trk.itemEnded, Config.itemQuiet]; rfl
  · simp only [hp, if_false]
    rw [if_neg (show ¬ (s.setTrk (s.trk.itemEnded s.lif.item.endAt)).trk.phase = .waiting from hp)]
    unfold State.passTurn
    have e : (s.setTrk (s.trk.itemEnded s.lif.item.endAt)).trk.holder = s.trk.holder := rfl
    rw [e]
    cases hh : s.trk.holder with
    | none => apply State.ext_blocks <;> simp [hh, Trk.itemEnded, Config.itemQuiet]
    | some k =>
      simp only [State.passFrom]
      apply State.ext_blocks <;> simp [State.dropPlan]
      · by_cases hw : k + 1 < s.groupSize <;>
          simp [passedTrk, nextStation, rotationAfter, hw, Trk.itemEnded, Config.itemQuiet]
      · by_cases hx : s.xfu.phase = .awaiting ∨ s.xfu.phase = .gathering <;> by_cases hw : k + 1 < s.groupSize <;>
          simp [Xfu.advance, hx, hw, Config.stallLimit, Nat.not_lt.mp, Nat.not_le.mpr]

/-- LIF, TRK and the stall count after a fault of any kind (R69, R91, R105). -/
theorem State.faulted_eq {s : State} {h : Heard} (own : Bool) (hf : h.isFault = true) (hs : s.faultEndsTurn) :
    ((s.lifReport h).trackItem h own).itemTaken = faulted s h := by
  have ht : (s.lifReport h).trackItem h own
      = ((s.lifReport h).setTrk (faultTrk (s.lifReport h))).setXfu (faultXfu (s.lifReport h)) := by
    rw [← State.faultTurn_eq]
    have hs' : (((s.lifReport h).setTrk ((s.lifReport h).trk.itemEnded (s.lifReport h).lif.item.endAt))).faultEndsTurn := by
      rw [State.lifReport_eq]; exact hs
    rw [← State.trackFault_eq hs']
    cases h <;> simp_all [Heard.isFault, State.trackItem]
  rw [ht, State.lifReport_eq]
  apply State.ext_blocks <;> simp [State.itemTaken, faulted]
  · simp [reportedLif, deliveredLif, LineItem.blank]
  · rfl
  · rfl

/-- ITEM_DELIVERY of a fault, another's or the own transmission's (R69, R105): what LIF and TRK make of it, then CMU, XFU and
the leave progress. -/
theorem execItemDelivery_faulted {s : State} {sent : Option Frame} {h : Heard} (hd : DeliversFault s sent h)
    (hs : s.faultEndsTurn) :
    execItemDelivery s = .next ((((faulted s h).cmuItem h sent.isSome (sent.map sentItem) s.trk.rotation).xfuItem h
      sent.isSome (sent.map sentItem)).leaveLoopback h (sent.map sentItem)) := by
  obtain ⟨hf, hd⟩ := hd
  cases sent with
  | none =>
    obtain ⟨h1, h2, h3, h4⟩ := hd
    simp only [execItemDelivery, State.unlessHeld_released _ h1, h2, if_true]
    congr 1
    simp only [State.deliver, h4, h3, State.ownSent]
    rw [State.faulted_eq _ hf hs]
    rfl
  | some f =>
    obtain ⟨h1, h2, h3, h5, h4⟩ := hd
    simp only [execItemDelivery, State.unlessHeld_released _ h1, h2, if_true]
    congr 1
    simp only [State.deliver, h4, h3, State.ownSent, h5]
    rw [State.faulted_eq _ hf hs]
    have : f.ownItem = sentItem f := by
      cases f <;> simp [Frame.ownItem, sentItem, StreamFrame.id, StreamFrame.isBare]
      rename_i g
      by_cases h1 : g.kind = .member <;> simp [h1]
      rw [Bool.eq_iff_iff]; simp
    simp only [if_true, Option.map_some, this, Option.isSome_some]

/-- ITEM_DELIVERY of another station's FOUND that ends a turn as a fault does (R91, R105). -/
theorem execItemDelivery_found {s : State} {f : StreamFrame} (hd : Delivers s (.stream f)) (hk : f.kind = .found)
    (hs : s.faultEndsTurn) (hl : s.stc.station ≠ .listening) :
    execItemDelivery s = .next (((faulted s (.stream f)).cmuItem (.stream f) false none s.trk.rotation).xfuItem (.stream f)
      false none) := by
  obtain ⟨h1, h2, h3, h4⟩ := hd
  simp only [execItemDelivery, State.unlessHeld_released _ h1, h2, if_true]
  congr 1
  simp only [State.deliver, h4, h3, State.ownSent]
  have ha : s.adoptsFound false = false := by
    unfold State.adoptsFound; split <;> simp_all
  have ht : ((s.lifReport (.stream f)).trackItem (.stream f) false).itemTaken = faulted s (.stream f) := by
    simp only [State.lifReport, State.trackItem, hk, ha]
    have hs' : (s.setTrk (s.trk.itemEnded s.lif.item.endAt)).faultEndsTurn := hs
    simp [State.trackFault_eq hs', State.faultTurn_eq]
    rfl
  rw [ht]
  simp [State.leaveLoopback, Heard.isFault]

/-- Outside LEAVING a loopback does not touch the leave progress (R150). -/
theorem State.leaveLoopback_other (s : State) (h : Heard) (x : Option OwnItem) (hs : s.stc.station ≠ .leaving) :
    s.leaveLoopback h x = s := by
  simp [State.leaveLoopback, hs]

/-- A join that fails returns the station to LISTENING (R132, R147). -/
theorem State.joinFail_eq (s : State) (why : JoinFailure) (r : Word32) : s.joinFail why r = joinFailed s why r := by
  unfold State.joinFail joinFailed
  apply State.ext_blocks <;> simp [Xfu.clearJoiner, Cmu.clearStream]
  simp [Trk.enterListening, listeningTrk, Trk.startWindow]

section
variable (s : State) (h : Heard)

@[simp] theorem faulted_stc : (faulted s h).stc = s.stc := rfl
@[simp] theorem faulted_cmu : (faulted s h).cmu = s.cmu := rfl
@[simp] theorem faultXfu_phase : (faultXfu s).phase = s.xfu.phase := by unfold faultXfu; split <;> rfl
@[simp] theorem faultXfu_joinMark : (faultXfu s).joinMark = s.xfu.joinMark := by unfold faultXfu; split <;> rfl
@[simp] theorem faultXfu_catchup : (faultXfu s).catchup = s.xfu.catchup := by unfold faultXfu; split <;> rfl

end

/-! ### Starts -/

theorem Xfu.newPlan_eq (x : Xfu) : x.newPlan = donorPlan x := by
  unfold Xfu.newPlan donorPlan; cases x.image <;> rfl

theorem Cmu.ownEcho_eq (c : Cmu) : c.ownEcho = replicaEcho c := by
  unfold Cmu.ownEcho replicaEcho; cases c.waiting <;> rfl

theorem Cmu.ownCheck_eq (c : Cmu) : c.ownCheck = replicaCheck c := by
  unfold Cmu.ownCheck replicaCheck; cases c.waiting <;> rfl

/-- A frame started as a replica (R77, R109, R135). -/
theorem State.sendReplica_eq (s : State) (k : StreamKind) (ops : List Request) :
    s.sendReplica k ops = { s with
      lif := startedLif s.lif (.stream (replicaFrame s k ops))
      trk := startedTrk s.trk
      xfu := { s.xfu with plan := donorPlan s.xfu }
      pins := { s.pins with lineActive := true } } := by
  simp only [State.sendReplica, Xfu.newPlan_eq, Cmu.ownEcho_eq, Cmu.ownCheck_eq]
  rfl

end Sys2Proof.Machine
end

