-- ==== Sys2Proof/Laws/Inside.lean ====
section
/-! SUPPORT. What no event of the line or of the part's own timing touches: the local port, the configuration, the strap
number, the level of RESET, the clock and the waiting commands; and that such an event only offers records. -/

namespace Sys2Proof.Machine

/-- `t` comes from `s` by work inside the part. -/
structure Inside (s t : State) : Prop where
  lpt : t.lpt = s.lpt
  config : t.stc.config = s.stc.config
  strap : t.stc.strap = s.stc.strap
  reset : t.pins.resetLow = s.pins.resetLow
  clock : t.clock = s.clock
  pending : t.pending = s.pending
  ntq : ∃ ns : List Note, t.ntq = ns.foldl Ntq.offer s.ntq

theorem Inside.refl (s : State) : Inside s s := ⟨rfl, rfl, rfl, rfl, rfl, rfl, [], rfl⟩

theorem Inside.trans {s t u : State} (h : Inside s t) (k : Inside t u) : Inside s u := by
  obtain ⟨a, b, c, d, e, f, ns, g⟩ := h
  obtain ⟨a', b', c', d', e', f', ms, g'⟩ := k
  exact ⟨a'.trans a, b'.trans b, c'.trans c, d'.trans d, e'.trans e, f'.trans f, ns ++ ms, by
    rw [g', g, List.foldl_append]⟩

/-! ### The updates -/

theorem Inside.setLif (s : State) (x : Lif) : Inside s (s.setLif x) := ⟨rfl, rfl, rfl, rfl, rfl, rfl, [], rfl⟩
theorem Inside.setTrk (s : State) (x : Trk) : Inside s (s.setTrk x) := ⟨rfl, rfl, rfl, rfl, rfl, rfl, [], rfl⟩
theorem Inside.setCmu (s : State) (x : Cmu) : Inside s (s.setCmu x) := ⟨rfl, rfl, rfl, rfl, rfl, rfl, [], rfl⟩
theorem Inside.setTbu (s : State) (x : Tbu) : Inside s (s.setTbu x) := ⟨rfl, rfl, rfl, rfl, rfl, rfl, [], rfl⟩
theorem Inside.setRqu (s : State) (x : Rqu) : Inside s (s.setRqu x) := ⟨rfl, rfl, rfl, rfl, rfl, rfl, [], rfl⟩
theorem Inside.setXfu (s : State) (x : Xfu) : Inside s (s.setXfu x) := ⟨rfl, rfl, rfl, rfl, rfl, rfl, [], rfl⟩
theorem Inside.setLeave (s : State) (l : LeavePhase) : Inside s (s.setStc { s.stc with leave := l }) :=
  ⟨rfl, rfl, rfl, rfl, rfl, rfl, [], rfl⟩
theorem Inside.setLine (s : State) (b : Bool) : Inside s (s.setPins { s.pins with lineActive := b }) :=
  ⟨rfl, rfl, rfl, rfl, rfl, rfl, [], rfl⟩
theorem Inside.offer (s : State) (n : Note) : Inside s (s.offer n) := ⟨rfl, rfl, rfl, rfl, rfl, rfl, [n], rfl⟩
theorem Inside.offerAll (s : State) (ns : List Note) : Inside s (s.offerAll ns) :=
  ⟨rfl, rfl, rfl, rfl, rfl, rfl, ns, rfl⟩
theorem Inside.enter (s : State) (st : StationState) (w : StateReason) (f : Option JoinFailure) (r : Word32) :
    Inside s (s.enter st w f r) := ⟨rfl, rfl, rfl, rfl, rfl, rfl, [_], rfl⟩

/-! ### Operations -/

theorem Inside.abortInflight (s : State) (r : Word32) : Inside s (s.abortInflight r) :=
  ⟨rfl, rfl, rfl, rfl, rfl, rfl, _, rfl⟩
theorem Inside.abortOutgoing (s : State) (r : Word32) : Inside s (s.abortOutgoing r) :=
  ⟨rfl, rfl, rfl, rfl, rfl, rfl, _, rfl⟩
theorem Inside.abortAll (s : State) (r : Word32) : Inside s (s.abortAll r) :=
  (Inside.abortInflight s r).trans (Inside.abortOutgoing _ r)
theorem Inside.abortDiscarded (s : State) (k : Nat) (r : Word32) : Inside s (s.abortDiscarded k r) :=
  ⟨rfl, rfl, rfl, rfl, rfl, rfl, _, rfl⟩
theorem Inside.clearTable (s : State) : Inside s s.clearTable := Inside.setTbu s _
theorem Inside.clearStream (s : State) : Inside s s.clearStream := Inside.setCmu s _
theorem Inside.releaseImage (s : State) : Inside s s.releaseImage := Inside.setXfu s _
theorem Inside.dropPlan (s : State) : Inside s s.dropPlan := Inside.setXfu s _

theorem Inside.toListening (s : State) (w : StateReason) (f : Option JoinFailure) (r : Word32) :
    Inside s (s.toListening w f r) := ⟨rfl, rfl, rfl, rfl, rfl, rfl, [_], rfl⟩
theorem Inside.absentExit (s : State) (r : Word32) : Inside s (s.absentExit r) :=
  ((Inside.abortAll s _).trans ((Inside.clearTable _).trans (Inside.releaseImage _))).trans (Inside.toListening _ _ _ _)
theorem Inside.divergedExit (s : State) : Inside s s.divergedExit :=
  ((Inside.abortAll s _).trans ((Inside.clearTable _).trans (Inside.releaseImage _))).trans (Inside.toListening _ _ _ _)
theorem Inside.foundVoidedExit (s : State) : Inside s s.foundVoidedExit :=
  ((Inside.abortOutgoing s _).trans ((Inside.clearStream _).trans ((Inside.clearTable _).trans
    (Inside.releaseImage _)))).trans (Inside.toListening _ _ _ _)
theorem Inside.leaveComplete (s : State) (r : Word32) : Inside s (s.leaveComplete r) :=
  ⟨rfl, rfl, rfl, rfl, rfl, rfl, [_], rfl⟩
theorem Inside.joinComplete (s : State) (r : Word32) : Inside s (s.joinComplete r) :=
  ⟨rfl, rfl, rfl, rfl, rfl, rfl, [_], rfl⟩
theorem Inside.joinFail (s : State) (f : JoinFailure) (r : Word32) : Inside s (s.joinFail f r) :=
  ⟨rfl, rfl, rfl, rfl, rfl, rfl, [_], rfl⟩

/-! ### The tracker -/

theorem Inside.passFrom (s : State) (h : Nat) : Inside s (s.passFrom h) := ⟨rfl, rfl, rfl, rfl, rfl, rfl, [], rfl⟩
theorem Inside.passTurn (s : State) : Inside s s.passTurn := by
  unfold State.passTurn; split
  · exact Inside.refl s
  · exact Inside.passFrom s _
theorem Inside.adopt (s : State) (h : Nat) (r : Word32) (k : Nat) (more : Bool) : Inside s (s.adopt h r k more) := by
  simp only [State.adopt]; split
  · exact (Inside.setTrk s _).trans (Inside.setXfu _ _)
  · exact ((Inside.setTrk s _).trans (Inside.setXfu _ _)).trans (Inside.dropPlan _)
theorem Inside.trackStream (s : State) (f : StreamFrame) : Inside s (s.trackStream f) := by
  simp only [State.trackStream]; split
  · exact Inside.adopt ..
  · exact (Inside.adopt ..).trans (Inside.passTurn _)
theorem Inside.trackTransfer (s : State) (f : TransferFrame) : Inside s (s.trackTransfer f) := by
  simp only [State.trackTransfer]
  generalize (if s.trk.holder = some f.sender then s.trk.transfers + 1 else 1) = k
  split
  · exact Inside.adopt ..
  · exact (Inside.adopt ..).trans (Inside.passTurn _)
theorem Inside.faultTurn (s : State) : Inside s s.faultTurn := by
  unfold State.faultTurn; split
  · exact Inside.refl s
  · exact Inside.passTurn s
theorem Inside.trackFault (s : State) : Inside s s.trackFault := by
  unfold State.trackFault; split <;> first
    | exact Inside.setTrk s _
    | exact Inside.refl s
    | exact Inside.faultTurn s
    | (split <;> first | exact Inside.faultTurn s | exact Inside.setTrk s _)
theorem Inside.trackItem (s : State) (h : Heard) (own : Bool) : Inside s (s.trackItem h own) := by
  simp only [State.trackItem]
  refine (Inside.setTrk s (s.trk.itemEnded s.lif.item.endAt)).trans ?_
  split
  · split
    · exact Inside.trackFault _
    · exact Inside.trackStream _ _
  · exact Inside.trackTransfer _ _
  · exact Inside.trackFault _
  · exact Inside.trackFault _
  · exact Inside.trackFault _

/-! ### The Commit Unit -/

theorem Inside.cmuHole (s : State) (o : Option OwnItem) : Inside s (s.cmuHole o) := Inside.setCmu s _
theorem Inside.rquVoided (s : State) (id : FrameId) : Inside s (s.rquVoided id) := by
  unfold State.rquVoided; split
  · split
    · exact (Inside.setRqu s _).trans (Inside.abortOutgoing _ _)
    · exact Inside.setRqu s _
  · exact Inside.refl s
theorem Inside.stcVoided (s : State) (m : OwnMark) : Inside s (s.stcVoided m) := by
  unfold State.stcVoided; split
  · exact Inside.foundVoidedExit s
  · split
    · exact Inside.setLeave s _
    · exact Inside.refl s
theorem Inside.reportFate (s : State) (b : Bool) : Inside s (s.reportFate b) := by
  unfold State.reportFate; split
  · exact Inside.refl s
  · split
    · exact Inside.setRqu s _
    · exact (Inside.rquVoided s _).trans (Inside.stcVoided _ _)
theorem Inside.route (s : State) (out : List Outcome) : Inside s (s.route out) := Inside.offerAll s _
theorem Inside.takeResults (s : State) (p : StreamFrame) (d : Bool) : Inside s (s.takeResults p d) := by
  unfold State.takeResults; split
  · split
    · exact Inside.abortDiscarded s _ _
    · exact Inside.setRqu s _
  · exact Inside.refl s
theorem Inside.syncImage (s : State) (p : StreamFrame) (b : Bool) : Inside s (s.syncImage p b) := by
  unfold State.syncImage; split
  · exact Inside.setXfu s _
  · split
    · exact Inside.refl s
    · exact Inside.releaseImage s
theorem Inside.memberReport (s : State) (p : StreamFrame) (x y : Tbu) : Inside s (s.memberReport p x y) := by
  unfold State.memberReport; split
  · exact Inside.absentExit s _
  · split
    · exact Inside.leaveComplete s _
    · exact Inside.refl s
theorem Inside.ownEntryReport (s : State) (p : StreamFrame) (x y : Tbu) : Inside s (s.ownEntryReport p x y) := by
  unfold State.ownEntryReport; split <;> first
    | exact Inside.refl s
    | exact Inside.memberReport s _ _ _
    | (split <;> first
        | exact Inside.refl s
        | exact Inside.joinFail s _ _
        | (split <;> first | exact Inside.joinComplete s _ | exact Inside.joinFail s _ _))
theorem Inside.applyCommitted (s : State) (p : StreamFrame) : Inside s (s.applyCommitted p) := by
  simp only [State.applyCommitted]
  exact ((((Inside.setTbu s _).trans (Inside.route _ _)).trans (Inside.takeResults _ _ _)).trans
    (Inside.syncImage _ _ _)).trans (Inside.ownEntryReport _ _ _ _)
theorem Inside.finishResolution (s : State) (g : StreamFrame) (own : Bool) : Inside s (s.finishResolution g own) := by
  unfold State.finishResolution; split
  · exact Inside.setCmu s _
  · exact Inside.clearStream s
theorem Inside.commitWaiting (s : State) (p g : StreamFrame) (own : Bool) : Inside s (s.commitWaiting p g own) := by
  simp only [State.commitWaiting]
  refine Inside.trans ?_ (Inside.finishResolution _ _ _)
  split
  · exact ((Inside.setCmu s _).trans (Inside.applyCommitted _ p)).trans (Inside.reportFate _ _)
  · exact (Inside.setCmu s _).trans (Inside.applyCommitted _ p)
theorem Inside.voidWaiting (s : State) (g : StreamFrame) (own : Bool) : Inside s (s.voidWaiting g own) :=
  (Inside.reportFate s _).trans (Inside.finishResolution _ _ _)
theorem Inside.diverge (s : State) (g : StreamFrame) (c : DivergeCause) : Inside s (s.diverge g c) := by
  unfold State.diverge; split
  · exact Inside.joinFail s _ _
  · exact (Inside.offer s _).trans ((Inside.clearStream _).trans (Inside.divergedExit _))
theorem Inside.discord (s : State) (g : StreamFrame) : Inside s (s.discord g) := by
  unfold State.discord; split
  · exact Inside.setCmu s _
  · split
    · exact Inside.refl s
    · exact Inside.diverge s _ _
theorem Inside.resolve (s : State) (g : StreamFrame) (own : Bool) : Inside s (s.resolve g own) := by
  unfold State.resolve; split
  · exact Inside.commitWaiting s _ _ _
  · exact Inside.voidWaiting s _ _
  · exact Inside.discord s _
  · exact Inside.diverge s _ _
theorem Inside.hear (s : State) (f : StreamFrame) : Inside s (s.hear f) := Inside.setCmu s _
theorem Inside.ignoreFound (s : State) (f : StreamFrame) (r : Word32) : Inside s (s.ignoreFound f r) := by
  unfold State.ignoreFound; split
  · exact Inside.refl s
  · exact (Inside.setCmu s _).trans (Inside.offer _ _)
theorem Inside.founded (s : State) (f : StreamFrame) : Inside s (s.founded f) :=
  (Inside.setCmu s _).trans (Inside.enter _ _ _ _ _)
theorem Inside.collided (s : State) : Inside s s.collided := Inside.enter s _ _ _ _

/-! ### The Transfer Unit -/

theorem Inside.catchAppend (s : State) (e : CatchEntry) : Inside s (s.catchAppend e) := by
  unfold State.catchAppend; split
  · exact Inside.setXfu s _
  · exact Inside.joinFail s _ _
theorem Inside.enterGathering (s : State) (j : FrameRef) : Inside s (s.enterGathering j) :=
  (Inside.setXfu s _).trans (Inside.enter _ _ _ _ _)
theorem Inside.joinLoopback (s : State) (id : FrameId) (h : Heard) : Inside s (s.joinLoopback id h) := by
  unfold State.joinLoopback; split <;> exact Inside.setXfu s _
theorem Inside.joinFate (s : State) (j : FrameRef) (g : StreamFrame) (own : Bool) : Inside s (s.joinFate j g own) := by
  unfold State.joinFate; split
  · split
    · exact (Inside.catchAppend s _).trans (Inside.enterGathering _ _)
    · exact Inside.joinFail s _ _
  · split
    · exact Inside.joinFail s _ _
    · exact Inside.setXfu s _
theorem Inside.awaitItem (s : State) (h : Heard) (own : Bool) (sent : Option OwnItem) :
    Inside s (s.awaitItem h own sent) := by
  unfold State.awaitItem; split
  · exact Inside.refl s
  · split
    · exact Inside.joinLoopback s _ _
    · exact Inside.refl s
  · split <;> first
      | exact Inside.catchAppend s _
      | exact Inside.refl s
      | (split <;> first | exact Inside.refl s | exact Inside.joinFate s _ _ _)
theorem Inside.endReplay (s : State) : Inside s s.endReplay := by
  unfold State.endReplay; split
  · exact Inside.setXfu s _
  · exact Inside.refl s
theorem Inside.startReplay (s : State) (ros : RosterItem) (recs : List ResRecord) (n : Nat) :
    Inside s (s.startReplay ros recs n) := by
  simp only [State.startReplay]
  split
  · exact ((Inside.setXfu s _).trans ((Inside.setTbu _ _).trans (Inside.setCmu _ _))).trans (Inside.endReplay _)
  · exact ((Inside.setXfu s _).trans ((Inside.setTbu _ _).trans (Inside.setCmu _ _))).trans (Inside.joinFail _ _ _)
theorem Inside.regather (s : State) : Inside s s.regather := Inside.setXfu s _
theorem Inside.checkMap (s : State) (n : Nat) : Inside s (s.checkMap n) := by
  simp only [State.checkMap]; split
  · split
    · split
      · exact Inside.startReplay s _ _ _
      · exact Inside.regather s
    · exact Inside.regather s
  · exact Inside.refl s
theorem Inside.storeTransfer (s : State) (t : TransferFrame) : Inside s (s.storeTransfer t) := by
  simp only [State.storeTransfer]; split
  · exact (Inside.setXfu s _).trans (Inside.checkMap _ _)
  · exact Inside.refl s
theorem Inside.catchItem (s : State) (h : Heard) (own : Bool) (sent : Option OwnItem) :
    Inside s (s.catchItem h own sent) := by
  unfold State.catchItem; split <;> first
    | exact Inside.catchAppend s _
    | (split <;> first | exact Inside.refl s | exact Inside.catchAppend s _ | exact Inside.storeTransfer s _)
theorem Inside.resolveEntry (s : State) (e : CatchEntry) : Inside s (s.resolveEntry e) := by
  unfold State.resolveEntry; split
  · exact Inside.resolve s _ _
  · exact Inside.cmuHole s _
theorem Inside.replayNext (s : State) : Inside s s.replayNext := by
  unfold State.replayNext; split
  · exact Inside.endReplay s
  · exact (Inside.setXfu s _).trans ((Inside.resolveEntry _ _).trans (Inside.endReplay _))
theorem Inside.xfuItem (s : State) (h : Heard) (own : Bool) (sent : Option OwnItem) : Inside s (s.xfuItem h own sent) := by
  unfold State.xfuItem; split <;> first
    | exact Inside.awaitItem s _ _ _
    | exact Inside.catchItem s _ _ _
    | exact Inside.refl s
    | (split <;> first | exact Inside.refl s | exact Inside.setXfu s _)

/-! ### Delivery, and the starts of frames -/

theorem Inside.lifReport (s : State) (h : Heard) : Inside s (s.lifReport h) := by
  unfold State.lifReport; split <;> first
    | exact Inside.refl s
    | (split <;> first | exact Inside.refl s | exact (Inside.setLif s _).trans (Inside.offer _ _))
theorem Inside.itemTaken (s : State) : Inside s s.itemTaken := Inside.setLif s _
theorem Inside.replicaItem (s : State) (h : Heard) (own : Bool) (sent : Option OwnItem) (r : Word32) :
    Inside s (s.replicaItem h own sent r) := by
  unfold State.replicaItem; split <;> first
    | exact Inside.refl s
    | exact Inside.cmuHole s _
    | (split <;> first | exact Inside.ignoreFound s _ _ | exact (Inside.hear s _).trans (Inside.resolve _ _ _))
theorem Inside.listenItem (s : State) (h : Heard) (b : Bool) : Inside s (s.listenItem h b) := by
  unfold State.listenItem; split <;> first
    | exact Inside.refl s
    | (split <;> first | exact Inside.refl s | exact Inside.hear s _)
theorem Inside.foundLoopback (s : State) (h : Heard) (own : Bool) : Inside s (s.foundLoopback h own) := by
  unfold State.foundLoopback; split
  · split <;> first
      | exact Inside.collided s
      | (split <;> first | exact Inside.founded s _ | exact Inside.collided s)
  · exact Inside.refl s
theorem Inside.replayingItem (s : State) (h : Heard) (r : Word32) : Inside s (s.replayingItem h r) := by
  unfold State.replayingItem; split <;> first
    | exact Inside.refl s
    | (split <;> first | exact Inside.ignoreFound s _ _ | exact Inside.hear s _)
theorem Inside.cmuItem (s : State) (h : Heard) (own : Bool) (sent : Option OwnItem) (r : Word32) :
    Inside s (s.cmuItem h own sent r) := by
  unfold State.cmuItem; split <;> first
    | exact Inside.refl s
    | exact Inside.listenItem s _ _
    | exact Inside.foundLoopback s _ _
    | exact Inside.replicaItem s _ _ _ _
    | (split <;> first
        | exact Inside.listenItem s _ _
        | exact Inside.replayingItem s _ _
        | exact Inside.replicaItem s _ _ _ _)
theorem Inside.leaveLoopback (s : State) (h : Heard) (sent : Option OwnItem) : Inside s (s.leaveLoopback h sent) := by
  unfold State.leaveLoopback; split
  · exact Inside.setLeave s _
  · exact Inside.refl s
theorem Inside.deliver (s : State) : Inside s s.deliver := by
  simp only [State.deliver]
  exact (((((Inside.lifReport s _).trans (Inside.trackItem _ _ _)).trans (Inside.itemTaken _)).trans
    (Inside.cmuItem _ _ _ _ _)).trans (Inside.xfuItem _ _ _ _)).trans (Inside.leaveLoopback _ _ _)
theorem Inside.startFrame (s : State) (f : Frame) : Inside s (s.startFrame f) := ⟨rfl, rfl, rfl, rfl, rfl, rfl, [], rfl⟩
theorem Inside.sendReplica (s : State) (k : StreamKind) (ops : List Request) : Inside s (s.sendReplica k ops) := by
  simp only [State.sendReplica]; exact (Inside.setXfu s _).trans (Inside.startFrame _ _)
theorem Inside.sendMember (s : State) : Inside s s.sendMember := by
  unfold State.sendMember; split
  · exact (Inside.setRqu s _).trans (Inside.sendReplica _ _ _)
  · exact Inside.sendReplica s _ _
theorem Inside.sendLeaving (s : State) : Inside s s.sendLeaving := by
  unfold State.sendLeaving; split
  · exact (Inside.setLeave s _).trans (Inside.sendReplica _ _ _)
  · exact Inside.sendReplica s _ _
theorem Inside.sendJoin (s : State) : Inside s s.sendJoin := (Inside.setXfu s _).trans (Inside.startFrame _ _)
theorem Inside.startTurn (s : State) : Inside s s.startTurn := by
  unfold State.startTurn; split <;> first
    | exact Inside.refl s
    | exact Inside.sendMember s
    | exact Inside.sendLeaving s
    | (split <;> first
        | exact Inside.refl s
        | exact Inside.sendJoin s
        | exact Inside.startFrame s _
        | exact Inside.sendReplica s _ _
        | exact (Inside.enter s _ _ _ _).trans (Inside.sendJoin _))
theorem Inside.frameMoment (s : State) : Inside s s.frameMoment := by
  unfold State.frameMoment; split
  · split
    · exact Inside.refl s
    · exact Inside.startTurn s
    · split
      · exact Inside.refl s
      · exact (Inside.setXfu s _).trans (Inside.startFrame _ _)
  · exact Inside.refl s
theorem Inside.beginFounding (s : State) : Inside s s.beginFounding :=
  (Inside.enter s _ _ _ _).trans (Inside.startFrame _ _)
theorem Inside.sentWhole (s : State) : Inside s s.sentWhole := by
  unfold State.sentWhole; split <;> exact Inside.setLif s _

/-! ### The commands that are events -/

/-- A command held off by RESET, or taken. -/
theorem Inside.unlessHeld {s t : State} (h : Inside s t) : Inside s (s.unlessHeld t) := by
  unfold State.unlessHeld; split
  · exact Inside.refl s
  · exact h

section
variable {s t : State}

theorem Inside.of_next {u : State} (k : Inside s u) (h : (.next u : Host.Outcome State Fault Refusal) = .next t) :
    Inside s t := by
  cases h; exact k

theorem Inside.execActivityBegins (h : execActivityBegins s = .next t) : Inside s t := by
  refine Inside.of_next ?_ h
  split
  · exact Inside.setLine s _
  · simp only [State.activityStarts]
    split
    · exact Inside.setLine s _
    · exact (Inside.setLine s _).trans ((Inside.setLif _ _).trans (Inside.setTrk _ _))
    · exact Inside.setLine s _
    · exact (Inside.setLine s _).trans (Inside.setLif _ _)

theorem Inside.execActivityStops {bits : List Bool} (h : execActivityStops bits s = .next t) : Inside s t := by
  refine Inside.of_next ?_ h
  split
  · exact Inside.setLine s _
  · simp only [State.activityEnds]
    split
    · exact Inside.refl s
    · split <;> first | exact Inside.setLine s _ | exact (Inside.setLine s _).trans (Inside.setLif _ _)

theorem Inside.execItemDelivery (h : execItemDelivery s = .next t) : Inside s t := by
  refine Inside.of_next (Inside.unlessHeld ?_) h
  split
  · exact Inside.deliver s
  · exact Inside.refl s

theorem Inside.execFrameStart (h : execFrameStart s = .next t) : Inside s t := by
  refine Inside.of_next (Inside.unlessHeld ?_) h
  split
  · exact Inside.refl s
  · exact Inside.frameMoment s

theorem Inside.execTransmissionEnd (h : execTransmissionEnd s = .next t) : Inside s t := by
  refine Inside.of_next (Inside.unlessHeld ?_) h
  split
  · exact Inside.sentWhole s
  · exact Inside.refl s

theorem Inside.execLoopbackMismatch (h : execLoopbackMismatch s = .next t) : Inside s t := by
  refine Inside.of_next (Inside.unlessHeld ?_) h
  split
  · exact Inside.setLif s _
  · exact Inside.refl s

theorem Inside.execSkipPoint (h : execSkipPoint s = .next t) : Inside s t := by
  refine Inside.of_next (Inside.unlessHeld ?_) h
  split
  · exact (Inside.passTurn s).trans (Inside.setTrk _ _)
  · exact Inside.refl s

theorem Inside.execListenWindowExpiry (h : execListenWindowExpiry s = .next t) : Inside s t := by
  refine Inside.of_next (Inside.unlessHeld ?_) h
  split
  · exact Inside.beginFounding s
  · exact Inside.refl s

theorem Inside.execAlignmentLoss (h : execAlignmentLoss s = .next t) : Inside s t := by
  refine Inside.of_next (Inside.unlessHeld ?_) h
  split
  · simp only [State.loseAlignment]; split <;> exact Inside.setTrk s _
  · exact Inside.refl s

theorem Inside.execJoinStall (h : execJoinStall s = .next t) : Inside s t := by
  refine Inside.of_next (Inside.unlessHeld ?_) h
  split
  · exact Inside.joinFail s _ _
  · exact Inside.refl s

theorem Inside.execReplayEntry (h : execReplayEntry s = .next t) : Inside s t := by
  refine Inside.of_next (Inside.unlessHeld ?_) h
  split
  · exact Inside.replayNext s
  · exact Inside.refl s

end

end Sys2Proof.Machine
end

