-- ==== Sys2Proof/Laws/Parse.lean ====
section
/-! SUPPORT. What the line's parsers answer: exactly the frames in range whose fields stand in the bytes (R106, R112 to
R116). -/

namespace Sys2Proof.Machine

/-! ### Bytes -/

/-- The bits of a byte made of eight bits are those bits. -/
theorem bitsOfByte_byteOfBits (a b c d e f g h : Bool) :
    bitsOfByte (byteOfBits a b c d e f g h) = [a, b, c, d, e, f, g, h] := by
  revert a b c d e f g h; decide

/-- Bits that are no whole bytes are no byte string (R106, check 1). -/
theorem bytesOfBits_ragged : ∀ bits : List Bool, bits.length % 8 ≠ 0 → bytesOfBits bits = none
  | [], h => by simp at h
  | [_], _ | [_, _], _ | [_, _, _], _ | [_, _, _, _], _ | [_, _, _, _, _], _ | [_, _, _, _, _, _], _
  | [_, _, _, _, _, _, _], _ => rfl
  | a :: b :: c :: d :: e :: f :: g :: h :: rest, hh => by
    have : rest.length % 8 ≠ 0 := by simp at hh; omega
    simp [bytesOfBits, bytesOfBits_ragged rest this]

/-- The bytes of a word put together from four bytes are those four. -/
theorem bytes32_join (a b c d : Byte) : bytes32 ((a ++ b : BitVec 16) ++ (c ++ d : BitVec 16)) = [a, b, c, d] := by
  simp only [bytes32, List.cons.injEq, and_true]
  refine ⟨?_, ?_, ?_, ?_⟩ <;> ext i hi <;>
    simp only [← BitVec.getLsbD_eq_getElem, BitVec.getLsbD_setWidth, BitVec.getLsbD_ushiftRight, BitVec.getLsbD_append, hi]
  · simp [show ¬ 24 + i < 16 by omega, show ¬ 24 + i - 16 < 8 by omega, show 24 + i - 16 - 8 = i by omega]
  · simp [show ¬ 16 + i < 16 by omega, hi]
  · simp [show 8 + i < 16 by omega]
  · simp [show i < 16 by omega, hi]

/-- Four bytes of a string are the bytes of the word that stands there. -/
theorem bytes32_word32At (l : List Byte) (n : Nat) (h : n + 4 ≤ l.length) : (l.drop n).take 4 = bytes32 (word32At l n) := by
  have four : ∀ m : List Byte, m.length = 4 → m = [byteAt m 0, byteAt m 1, byteAt m 2, byteAt m 3] := fun m hm => by
    match m, hm with
    | [_, _, _, _], _ => rfl
  have at_ : ∀ i, i < 4 → byteAt ((l.drop n).take 4) i = byteAt l (n + i) := fun i hi => by
    simp [byteAt, hi, List.getElem?_drop]
  have hl : ((l.drop n).take 4).length = 4 := by simp; omega
  rw [four _ hl, at_ 0 (by omega), at_ 1 (by omega), at_ 2 (by omega), at_ 3 (by omega)]
  simp only [word32At, word16At, Nat.add_zero, Nat.add_assoc, bytes32_join]

/-! ### Fields -/

/-- The bytes of a 16-bit field stand where the word is read. -/
theorem standsAt_bytes16 {l : List Byte} {i : Nat} {w : Word16} : StandsAt l i (bytes16 w) ↔ word16At l i = w := by
  have two : StandsAt l i (bytes16 w) ↔ byteAt l i = (w >>> 8).setWidth 8 ∧ byteAt l (i + 1) = w.setWidth 8 := by
    constructor
    · intro h; exact ⟨h 0 _ rfl, h 1 _ rfl⟩
    · rintro ⟨h0, h1⟩ k b hk
      match k with
      | 0 => cases hk; exact h0
      | 1 => cases hk; exact h1
      | k + 2 => cases hk
  rw [two]
  constructor
  · rintro ⟨h0, h1⟩; rw [word16At, h0, h1]; exact word16_of_bytes w
  · rintro rfl
    have e : ∀ a b : Byte, ((a ++ b : BitVec 16) >>> 8).setWidth 8 = a ∧ (a ++ b : BitVec 16).setWidth 8 = b := by
      intro a b
      constructor <;> ext j hj <;>
        simp only [← BitVec.getLsbD_eq_getElem, BitVec.getLsbD_setWidth, BitVec.getLsbD_ushiftRight,
          BitVec.getLsbD_append, hj]
      · simp
      · simp
    exact ⟨(e _ _).1.symm, (e _ _).2.symm⟩

/-- The bytes of a 32-bit field stand where the word is read. -/
theorem standsAt_bytes32 {l : List Byte} {i : Nat} {w : Word32} : StandsAt l i (bytes32 w) ↔ word32At l i = w := by
  have four : StandsAt l i (bytes32 w) ↔ [byteAt l i, byteAt l (i + 1), byteAt l (i + 2), byteAt l (i + 3)] = bytes32 w := by
    simp only [bytes32, List.cons.injEq, and_true]
    constructor
    · intro h; exact ⟨h 0 _ rfl, h 1 _ rfl, h 2 _ rfl, h 3 _ rfl⟩
    · rintro ⟨h0, h1, h2, h3⟩ k b hk
      match k with
      | 0 => cases hk; exact h0
      | 1 => cases hk; exact h1
      | 2 => cases hk; exact h2
      | 3 => cases hk; exact h3
      | k + 4 => cases hk
  rw [four]
  constructor
  · intro h
    simp only [bytes32, List.cons.injEq, and_true] at h
    obtain ⟨h0, h1, h2, h3⟩ := h
    rw [word32At, word16At, word16At, h0, h1, show i + 2 + 1 = i + 3 from rfl, h2, h3]
    exact word32_of_bytes w
  · rintro rfl
    simp only [word32At, word16At, bytes32_join, Nat.add_assoc]

/-- A byte of a string as the parsers read it. -/
theorem getD_eq_byteAt (l : List Byte) (i : Nat) : l.getD i 0 = byteAt l i := rfl

/-- Two byte strings agree in the `n` bytes from two indices on. -/
def AgreeAt (l m : List Byte) (i j n : Nat) : Prop := ∀ k, k < n → l.getD (i + k) 0 = m.getD (j + k) 0

theorem AgreeAt.part {l m : List Byte} {i j n : Nat} (h : AgreeAt l m i j n) (d w : Nat) (hw : d + w ≤ n) :
    AgreeAt l m (i + d) (j + d) w := by
  intro k hk
  have := h (d + k) (by omega)
  rwa [← Nat.add_assoc, ← Nat.add_assoc] at this

theorem AgreeAt.byte {l m : List Byte} {i j n : Nat} (h : AgreeAt l m i j n) (d : Nat) (hd : d < n) :
    l.getD (i + d) 0 = m.getD (j + d) 0 := h d hd

theorem AgreeAt.stands {l m : List Byte} {i j n : Nat} (h : AgreeAt l m i j n) (d : Nat) (field : List Byte)
    (hw : d + field.length ≤ n) : StandsAt l (i + d) field ↔ StandsAt m (j + d) field := by
  have key : ∀ {l m : List Byte} {i j : Nat}, AgreeAt l m i j field.length → StandsAt l i field → StandsAt m j field := by
    intro l m i j hh hs k b hk
    rw [← hh k (List.getElem?_eq_some_iff.mp hk).1]; exact hs k b hk
  have hp := h.part d field.length hw
  exact ⟨key hp, key fun k hk => (hp k hk).symm⟩

/-- A suffix, cut off or not, agrees with the string it is taken from. -/
theorem agreeAt_drop_take (l : List Byte) (i n : Nat) : AgreeAt ((l.drop i).take n) l 0 i n := by
  intro k hk
  simp [hk]

theorem agreeAt_drop (l : List Byte) (i j n : Nat) : AgreeAt (l.drop i) l j (i + j) n := by
  intro k _
  simp [Nat.add_assoc]

theorem EntryAt.congr {l m : List Byte} {i j : Nat} (h : AgreeAt l m i j 8) (q : Request) :
    EntryAt l i q ↔ EntryAt m j q := by
  have h0 := h.byte 0 (by omega)
  simp only [Nat.add_zero] at h0
  unfold EntryAt
  rw [h0, h.byte 1 (by omega), h.stands 2 _ (by simp), h.stands 4 _ (by simp), h.stands 6 _ (by simp)]

theorem RosterEntryAt.congr {l m : List Byte} {i j : Nat} (h : AgreeAt l m i j 10) (e : RosterEntry) :
    RosterEntryAt l i e ↔ RosterEntryAt m j e := by
  have h0 := h.byte 0 (by omega)
  simp only [Nat.add_zero] at h0
  cases e <;> simp only [RosterEntryAt] <;> rw [h0]
  · rw [h.byte 9 (by omega), h.stands 5 _ (by simp)]
  · rw [h.stands 1 _ (by simp)]

theorem ClaimAt.congr {l m : List Byte} {i j : Nat} (h : AgreeAt l m i j 9) (st : ClaimState) (c : Claim) :
    ClaimAt l i st c ↔ ClaimAt m j st c := by
  have h0 := h.byte 0 (by omega)
  simp only [Nat.add_zero] at h0
  have h5 : ∀ e, StandsAt l (i + 5) (bytes32 e) ↔ StandsAt m (j + 5) (bytes32 e) := fun e => h.stands 5 _ (by simp)
  unfold ClaimAt
  simp only [h5]
  rw [h0, h.byte 1 (by omega), h.byte 2 (by omega), h.stands 3 _ (by simp)]

/-- A run of fields: the first, and the others behind it. -/
theorem forall_getElem?_cons {α : Type} (x : α) (xs : List α) (P : Nat → α → Prop) :
    (∀ k y, (x :: xs)[k]? = some y → P k y) ↔ P 0 x ∧ ∀ k y, xs[k]? = some y → P (k + 1) y := by
  constructor
  · intro h; exact ⟨h 0 x rfl, fun k y hk => h (k + 1) y hk⟩
  · rintro ⟨h0, h1⟩ k y hk
    match k with
    | 0 => cases hk; exact h0
    | k + 1 => exact h1 k y hk

theorem ItemAt.congr {l m : List Byte} {i j : Nat} (it : SnapItem) (h : AgreeAt l m i j (itemLength it)) :
    ItemAt l i it ↔ ItemAt m j it := by
  cases it with
  | roster r =>
    have hn : AgreeAt l m i j (18 + 10 * r.entries.length) := h
    have h0 := hn.byte 0 (by omega)
    simp only [Nat.add_zero] at h0
    have he : ∀ k e, r.entries[k]? = some e → (RosterEntryAt l (i + 18 + 10 * k) e ↔ RosterEntryAt m (j + 18 + 10 * k) e) := by
      intro k e hk
      have := (List.getElem?_eq_some_iff.mp hk).1
      have hp := hn.part (18 + 10 * k) 10 (by omega)
      rw [← Nat.add_assoc, ← Nat.add_assoc] at hp
      exact RosterEntryAt.congr hp e
    simp only [ItemAt]
    rw [h0, hn.byte 13 (by omega), hn.stands 1 _ (by rw [bytes32_length]; omega),
      hn.stands 5 _ (by rw [bytes32_length]; omega), hn.stands 9 _ (by rw [bytes32_length]; omega),
      hn.stands 14 _ (by rw [bytes32_length]; omega)]
    exact and_congr_right fun _ => and_congr_right fun _ => and_congr_right fun _ => and_congr_right fun _ =>
      and_congr_right fun _ => and_congr_right fun _ => forall_congr' fun k => forall_congr' fun e =>
        forall_congr' fun hk => he k e hk
  | record r =>
    have hn : AgreeAt l m i j (3 + 9 * (r.holders.length + r.waiters.length)) := h
    have hc : ∀ k st c, k < r.holders.length + r.waiters.length →
        (ClaimAt l (i + 3 + 9 * k) st c ↔ ClaimAt m (j + 3 + 9 * k) st c) := by
      intro k st c hk
      have hp := hn.part (3 + 9 * k) 9 (by omega)
      rw [← Nat.add_assoc, ← Nat.add_assoc] at hp
      exact ClaimAt.congr hp st c
    have h2 := hn.stands 0 (bytes16 r.resource) (by simp; omega)
    simp only [Nat.add_zero] at h2
    simp only [ItemAt]
    rw [h2, hn.byte 2 (by omega)]
    refine and_congr_right fun _ => and_congr_right fun _ => and_congr ?_ ?_
    · exact forall_congr' fun k => forall_congr' fun c => forall_congr' fun hk =>
        hc k _ c (by have := (List.getElem?_eq_some_iff.mp hk).1; omega)
    · exact forall_congr' fun k => forall_congr' fun c => forall_congr' fun hk =>
        hc _ _ c (by have := (List.getElem?_eq_some_iff.mp hk).1; omega)

theorem ItemsAt.congr {l m : List Byte} : ∀ (items : List SnapItem) {i j : Nat},
    AgreeAt l m i j (items.map itemLength).sum → (ItemsAt l i items ↔ ItemsAt m j items)
  | [], _, _, _ => Iff.rfl
  | it :: rest, i, j, h => by
    simp only [List.map_cons, List.sum_cons] at h
    have h1 : AgreeAt l m i j (itemLength it) := fun k hk => h k (by omega)
    have h2 := h.part (itemLength it) (rest.map itemLength).sum (by omega)
    simp only [ItemsAt]
    rw [ItemAt.congr it h1, ItemsAt.congr rest h2]

/-! ### Requests and stream frames -/

/-- A request that the fields of an entry form keeps the rules of its form (R113, R158). -/
theorem formRequest_wf {op mode tag res lease pat q} (h : formRequest op mode tag res lease pat = some q) : q.wf = true := by
  unfold formRequest at h
  cases ho : opKindOf op with
  | none => simp [ho] at h
  | some k =>
    simp only [ho] at h
    split at h; cases h
    split at h; cases h
    split at h; cases h
    split at h; cases h
    rename_i h1 h2 h3 h4
    cases h
    simp only [Request.wf, Bool.and_eq_true, decide_eq_true_eq, Config.maxLease] at *
    cases k <;> simp_all [OpKind.usesMode, OpKind.usesLease, OpKind.usesPatience]
    obtain h2 := h2
    cases hm : modeOf mode <;> simp_all

/-- The fields of an entry form a request exactly when they are its fields, with what its op kind ignores at 0, and it keeps
the rules of its form (R21, R113, R158). -/
theorem formRequest_iff {op mode tag res lease pat q} : formRequest op mode tag res lease pat = some q ↔
    q.wf = true ∧ op = (match q.kind with | .acquire => 1 | .release => 2 | .renew => 3 | .withdraw => 4 | .downgrade => 5)
      ∧ (∀ m, q.mode = some m → mode = (match m with | .shared => 1 | .exclusive => 2)) ∧ tag = q.tag ∧ res = q.resource
      ∧ (q.kind = .acquire ∨ q.kind = .renew → lease = q.lease) ∧ (q.kind = .acquire → pat = q.patience) := by
  have ho : ∀ k : OpKind, opKindOf op = some k ↔
      op = (match k with | .acquire => 1 | .release => 2 | .renew => 3 | .withdraw => 4 | .downgrade => 5) := by
    intro k
    unfold opKindOf
    cases k <;> (repeat' split) <;> simp_all
  have hm : ∀ m : Mode, modeOf mode = some m ↔ mode = (match m with | .shared => 1 | .exclusive => 2) := by
    intro m
    unfold modeOf
    cases m <;> (repeat' split) <;> simp_all
  constructor
  · intro h
    refine ⟨formRequest_wf h, ?_⟩
    unfold formRequest at h
    cases hk : opKindOf op with
    | none => simp [hk] at h
    | some k =>
      simp only [hk] at h
      split at h; cases h
      split at h; cases h
      split at h; cases h
      split at h; cases h
      cases h
      refine ⟨(ho k).mp hk, fun m h => (hm m).mp ?_, rfl, rfl, ?_, ?_⟩
      · revert h; cases k <;> simp [OpKind.usesMode]
      · cases k <;> simp [OpKind.usesLease]
      · cases k <;> simp [OpKind.usesPatience]
  · obtain ⟨k, m, t, x, le, pa⟩ := q
    rintro ⟨hw, h1, h2, rfl, rfl, h3, h4⟩
    unfold formRequest
    rw [(ho k).mpr h1]
    have h2' := fun m' h => (hm m').mpr (h2 m' h)
    simp only [Request.wf, Bool.and_eq_true, decide_eq_true_eq, Config.maxLease] at hw
    cases k <;> rcases m with _ | _ | _ <;>
      simp_all [OpKind.usesMode, OpKind.usesLease, OpKind.usesPatience] <;> decide

/-- Operation entries are as many as the count says, and each keeps the rules of its form (R113). -/
theorem parseEntries_wf : ∀ (k : Nat) (l : List Byte) qs, parseEntries k l = some qs →
    qs.length = k ∧ ∀ q ∈ qs, q.wf = true
  | 0, l, qs, h => by simp [parseEntries] at h; subst h; simp
  | k+1, l, qs, h => by
    simp only [parseEntries] at h
    split at h
    · rename_i q qs' h1 h2
      cases h
      have := parseEntries_wf k _ _ h2
      refine ⟨by simp [this.1], ?_⟩
      intro x hx
      rcases List.mem_cons.mp hx with rfl | hx
      · unfold parseEntry at h1
        simp only at h1
        split at h1; cases h1
        exact formRequest_wf h1
      · exact this.2 x hx
    · cases h

/-- A flags byte without reserved bits is its three flags (R112). -/
theorem streamFlags_eq (b : Byte) (h : b.toNat / 8 = 0) :
    b = byteOf (bitValue (b.getLsbD 0) + 2 * bitValue (b.getLsbD 1) + 4 * bitValue (b.getLsbD 2)) := by
  revert b; decide +kernel

/-- A transfer frame's flags byte without reserved bits is its one flag (R115). -/
theorem transferFlags_eq (b : Byte) (h : b.toNat / 2 = 0) : b = byteOf (bitValue (b.getLsbD 0)) := by
  revert b; decide +kernel

/-- A stream frame that is accepted keeps the rules of its form (R112 to R114), and its kind, sender, length, check, flags
and rotation are those of the bytes. -/
theorem parseStream_ok {n k l check f} (h : parseStream n k l check = some f) :
    f.wf n = true ∧ f.kind = k ∧ (byteAt l 3).toNat = f.sender ∧ l.length = 23 + 8 * f.ops.length ∧ f.check = check
      ∧ byteAt l 2 = byteOf (bitValue f.moreFollows + 2 * bitValue f.echo.isSome + 4 * bitValue f.streamCheck.isSome)
      ∧ f.rotation = word32At l 4 := by
  unfold parseStream at h
  simp only at h
  split at h; cases h
  split at h; cases h
  split at h; cases h
  rename_i h1 h2 h3
  split at h; cases h
  rename_i ops ho
  cases h
  have hops := parseEntries_wf _ _ _ ho
  simp only [Bool.or_eq_true, decide_eq_true_eq, Bool.and_eq_true, not_or, Bool.not_eq_true', Config.snapshotItems,
    Config.maxOps, ne_eq, not_and, not_not, Bool.not_eq_false] at h1 h3 h2
  have flag : ∀ {α : Type} (b : Bool) (x : α), (if b = true then some x else none).isSome = b := fun b _ => by
    cases b <;> rfl
  refine ⟨?_, rfl, rfl, by simp [hops.1]; omega, rfl, ?_, rfl⟩
  · simp only [StreamFrame.wf, Bool.and_eq_true, Bool.or_eq_true, decide_eq_true_eq, flag, Config.snapshotItems,
      Config.maxOps]
    obtain ⟨h1a, h1b⟩ := h1
    obtain ⟨⟨⟨⟨⟨h3a, h3b⟩, h3c⟩, h3d⟩, h3e⟩, h3f⟩ := h3
    refine ⟨⟨⟨⟨⟨⟨h1b, by omega⟩, ?_⟩, ?_⟩, ?_⟩, ?_⟩, by simpa using hops.2⟩
    · by_cases hk : k = .found
      · exact .inr (h3b hk)
      · exact .inl hk
    · by_cases he : (byteAt l 2).getLsbD 1 = true
      · have := h3c he; rw [if_pos he]; simp only [decide_eq_true_eq]; omega
      · rw [if_neg he]
    · by_cases hk : k = .loading
      · have := h3d hk; simp [hk]; omega
      · simp [hk]
    · by_cases hk : k = .member
      · simp [hk, hops.1]; omega
      · have := h3f hk
        have hz : ops = [] := List.length_eq_zero_iff.mp (by rw [hops.1]; exact this)
        simp [hk, hz]
  · simp only [flag]; exact streamFlags_eq _ (by omega)

/-- Eight bytes are accepted as the request that they hold (R113). -/
theorem parseEntry_iff {l : List Byte} {q : Request} : parseEntry l = some q ↔ q.wf = true ∧ EntryAt l 0 q := by
  unfold parseEntry EntryAt
  simp only [standsAt_bytes16, Nat.zero_add]
  change (if ((l.getD 0 0).getLsbD 3 || (l.getD 0 0).getLsbD 6 || (l.getD 0 0).getLsbD 7) = true then none
    else formRequest _ _ (l.getD 1 0) _ _ _) = some q ↔ _
  split
  · rename_i h
    simp only [Bool.or_eq_true] at h
    simp only [reduceCtorEq, false_iff]
    rintro ⟨-, ⟨h3, h6, h7⟩, -⟩
    rcases h with (h | h) | h <;> simp_all
  · rename_i h
    simp only [Bool.or_eq_true, not_or, Bool.not_eq_true] at h
    rw [formRequest_iff]
    constructor
    · rintro ⟨a, b, c, d, e, f, g⟩; exact ⟨a, ⟨h.1.1, h.1.2, h.2⟩, b, c, d, e, f, g⟩
    · rintro ⟨a, -, b, c, d, e, f, g⟩; exact ⟨a, b, c, d, e, f, g⟩

/-- Operation entries are accepted as the requests that they hold, in their order (R113). -/
theorem parseEntries_iff : ∀ {k : Nat} {l : List Byte} {qs : List Request}, parseEntries k l = some qs ↔
    qs.length = k ∧ (∀ q ∈ qs, q.wf = true) ∧ ∀ i q, qs[i]? = some q → EntryAt l (8 * i) q
  | 0, l, qs => by
    simp only [parseEntries, Option.some.injEq]
    constructor
    · rintro rfl; simp
    · rintro ⟨h, -⟩; exact (List.length_eq_zero_iff.mp h).symm
  | k + 1, l, qs => by
    cases qs with
    | nil => simp only [parseEntries]; split <;> simp
    | cons q qs =>
      have e : parseEntries (k + 1) l = some (q :: qs) ↔ parseEntry (l.take 8) = some q ∧ parseEntries k (l.drop 8) = some qs := by
        simp only [parseEntries]
        cases parseEntry (l.take 8) <;> cases parseEntries k (l.drop 8) <;> simp
      rw [e, parseEntry_iff, parseEntries_iff, forall_getElem?_cons]
      have h0 : EntryAt (l.take 8) 0 q ↔ EntryAt l (8 * 0) q := EntryAt.congr (by simpa using agreeAt_drop_take l 0 8) q
      have h1 : ∀ i x, EntryAt (l.drop 8) (8 * i) x ↔ EntryAt l (8 * (i + 1)) x := fun i x =>
        EntryAt.congr (by rw [Nat.mul_add, Nat.add_comm (8 * i)]; exact agreeAt_drop l 8 (8 * i) 8) x
      simp only [h0, h1, List.length_cons, Nat.add_right_cancel_iff, List.forall_mem_cons]
      tauto

/-- A stream frame is accepted exactly when it is in range and its fields stand in the bytes (R106, R112 to R114). Offsets
count from the byte after the sync pattern. -/
theorem parseStream_iff {n k l check f} : parseStream n k l check = some f ↔
    f.kind = k ∧ f.check = check ∧ f.wf n = true
      ∧ byteAt l 2 = byteOf (bitValue f.moreFollows + 2 * bitValue f.echo.isSome + 4 * bitValue f.streamCheck.isSome)
      ∧ (byteAt l 3).toNat = f.sender ∧ word32At l 4 = f.rotation
      ∧ (∀ e, f.echo = some e → word32At l 8 = e.id.rotation ∧ (byteAt l 12).toNat = e.id.sender ∧ word32At l 13 = e.check)
      ∧ (∀ v, f.streamCheck = some v → word32At l 17 = v) ∧ (f.kind = .loading → (byteAt l 21).toNat = f.wanted)
      ∧ (byteAt l 22).toNat = f.ops.length ∧ (∀ i q, f.ops[i]? = some q → EntryAt l (23 + 8 * i) q)
      ∧ l.length = 23 + 8 * f.ops.length := by
  have hent : ∀ i q, EntryAt (l.drop 23) (8 * i) q ↔ EntryAt l (23 + 8 * i) q := fun i q =>
    EntryAt.congr (agreeAt_drop l 23 (8 * i) 8) q
  constructor
  · intro h
    have hok := parseStream_ok h
    unfold parseStream at h
    simp only at h
    split at h; cases h
    split at h; cases h
    split at h; cases h
    rename_i h2
    split at h; cases h
    rename_i ops ho
    cases h
    obtain ⟨o1, o2, o3⟩ := parseEntries_iff.mp ho
    refine ⟨rfl, rfl, hok.1, hok.2.2.2.2.2.1, rfl, rfl, ?_, ?_, ?_, o1.symm, fun i q hq => (hent i q).mp (o3 i q hq), hok.2.2.2.1⟩
    · intro e he
      simp only at he
      split at he <;> cases he
      exact ⟨rfl, rfl, rfl⟩
    · intro v hv
      simp only at hv
      split at hv <;> cases hv
      rfl
    · intro hk
      simp only at hk
      simp [hk]
  · rintro ⟨rfl, rfl, hw, hfl, hs, hr, he, hc, hwa, hco, hops, hl⟩
    have hops' : parseEntries (byteAt l 22).toNat (l.drop 23) = some f.ops := by
      simp only [StreamFrame.wf, Bool.and_eq_true, List.all_eq_true] at hw
      exact parseEntries_iff.mpr ⟨hco.symm, hw.2, fun i q hq => (hent i q).mpr (hops i q hq)⟩
    have bits : ∀ a b c : Bool, (byteOf (bitValue a + 2 * bitValue b + 4 * bitValue c)).getLsbD 0 = a
        ∧ (byteOf (bitValue a + 2 * bitValue b + 4 * bitValue c)).getLsbD 1 = b
        ∧ (byteOf (bitValue a + 2 * bitValue b + 4 * bitValue c)).getLsbD 2 = c
        ∧ (byteOf (bitValue a + 2 * bitValue b + 4 * bitValue c)).toNat / 8 = 0 := by decide
    obtain ⟨b0, b1, b2, b3⟩ := bits f.moreFollows f.echo.isSome f.streamCheck.isSome
    simp only [StreamFrame.wf, Bool.and_eq_true, Bool.or_eq_true, decide_eq_true_eq, Config.snapshotItems,
      Config.maxOps] at hw
    obtain ⟨⟨⟨⟨⟨⟨w1, w2⟩, w3⟩, w4⟩, w5⟩, w6⟩, -⟩ := hw
    unfold parseStream
    simp only [hfl, b0, b1, b2, b3, hs, hr, hops']
    rw [if_neg (by simp [w1]), if_neg (by rw [hl, hco]; simp), if_neg]
    · obtain ⟨kind, sender, rotation, more, echo, sc, wanted, ops, check⟩ := f
      simp only at he hc hwa w5
      have e1 : (if echo.isSome = true then some (⟨⟨word32At l 8, (byteAt l 12).toNat⟩, word32At l 13⟩ : FrameRef) else none)
          = echo := by
        cases echo with
        | none => rfl
        | some e => obtain ⟨x, y, z⟩ := he e rfl; simp [x, y, z]
      have e2 : (if sc.isSome = true then some (word32At l 17) else none) = sc := by
        cases sc with
        | none => rfl
        | some v => simp [hc v rfl]
      have e3 : (if kind = .loading then (byteAt l 21).toNat else 0) = wanted := by
        by_cases hk : kind = .loading
        · simp [hk, hwa hk]
        · simp [hk] at w5 ⊢; exact w5.symm
      simp only [e1, e2, e3]
    · simp only [Bool.or_eq_true, Bool.and_eq_true, decide_eq_true_eq, not_or, not_and, Config.snapshotItems, Config.maxOps]
      refine ⟨⟨⟨⟨⟨by omega, fun hk => ?_⟩, fun hh => ?_⟩, fun hk => ?_⟩, ?_⟩, fun hk => ?_⟩
      · rcases w3 with w3 | w3
        · exact absurd hk w3
        · simpa using w3
      · cases hec : f.echo with
        | none => simp [hec] at hh
        | some e => simp only [hec] at w4; have := (he e hec).2.1; simp at w4; omega
      · simp only [hk, if_true] at w5; have := hwa hk; simp at w5; omega
      · split at w6
        · simp at w6; omega
        · simp at w6; simp [hco, w6]
      · simp only [hk, if_false] at w6; simp at w6; simp [hco, w6]

/-! ### Transfer frames -/

/-- Ten bytes are accepted as the roster entry that they hold (R116). -/
theorem parseRosterEntry_iff {n : Nat} {l : List Byte} {e : RosterEntry} :
    parseRosterEntry n l = some e ↔ e.wf n = true ∧ RosterEntryAt l 0 e := by
  unfold parseRosterEntry
  have d01 : ¬ (1 : Byte) = 0 := by decide
  have d02 : ¬ (2 : Byte) = 0 := by decide
  have d12 : ¬ (2 : Byte) = 1 := by decide
  cases e <;> simp only [RosterEntryAt, RosterEntry.wf, standsAt_bytes32, getD_eq_byteAt, Nat.zero_add, decide_eq_true_eq, true_and]
  · constructor
    · intro h; split at h; assumption; split at h; split at h <;> cases h; split at h <;> cases h
    · intro h; rw [if_pos h]
  · constructor
    · intro h
      split at h; cases h
      split at h
      · split at h <;> cases h
        rename_i hd
        exact ⟨hd, by assumption, rfl, rfl⟩
      · split at h <;> cases h
    · rintro ⟨h, h0, rfl, rfl⟩; rw [h0, if_neg d01, if_pos rfl, if_pos h]
  · constructor
    · intro h
      split at h; cases h
      split at h; split at h <;> cases h
      split at h <;> cases h
      exact ⟨by assumption, rfl⟩
    · rintro ⟨h0, rfl⟩; rw [h0, if_neg d02, if_neg d12, if_pos rfl]

/-- Roster entries are accepted as those that the bytes hold, in their order (R116). -/
theorem parseRosterEntries_iff {n : Nat} : ∀ {k : Nat} {l : List Byte} {es : List RosterEntry},
    parseRosterEntries n k l = some es ↔
      es.length = k ∧ (∀ e ∈ es, e.wf n = true) ∧ ∀ i e, es[i]? = some e → RosterEntryAt l (10 * i) e
  | 0, l, es => by
    simp only [parseRosterEntries, Option.some.injEq]
    constructor
    · rintro rfl; simp
    · rintro ⟨h, -⟩; exact (List.length_eq_zero_iff.mp h).symm
  | k + 1, l, es => by
    cases es with
    | nil => simp only [parseRosterEntries]; split <;> simp
    | cons x xs =>
      have e : parseRosterEntries n (k + 1) l = some (x :: xs)
          ↔ parseRosterEntry n (l.take 10) = some x ∧ parseRosterEntries n k (l.drop 10) = some xs := by
        simp only [parseRosterEntries]
        cases parseRosterEntry n (l.take 10) <;> cases parseRosterEntries n k (l.drop 10) <;> simp
      rw [e, parseRosterEntry_iff, parseRosterEntries_iff, forall_getElem?_cons]
      have h0 : RosterEntryAt (l.take 10) 0 x ↔ RosterEntryAt l (10 * 0) x :=
        RosterEntryAt.congr (by simpa using agreeAt_drop_take l 0 10) x
      have h1 : ∀ i y, RosterEntryAt (l.drop 10) (10 * i) y ↔ RosterEntryAt l (10 * (i + 1)) y := fun i y =>
        RosterEntryAt.congr (by rw [Nat.mul_add, Nat.add_comm (10 * i)]; exact agreeAt_drop l 10 (10 * i) 10) y
      simp only [h0, h1, List.length_cons, Nat.add_right_cancel_iff, List.forall_mem_cons]
      tauto

/-- The roster item at the head of a byte string is the one that it holds, with the bytes behind it (R116). -/
theorem parseRosterItem_iff {n : Nat} {l rest : List Byte} {it : SnapItem} : parseRosterItem n l = some (it, rest) ↔
    it.wf n 0 = true ∧ itemLength it ≤ l.length ∧ rest = l.drop (itemLength it) ∧ ItemAt l 0 it := by
  have hent : ∀ i e, RosterEntryAt (l.drop 18) (10 * i) e ↔ RosterEntryAt l (18 + 10 * i) e := fun i e =>
    RosterEntryAt.congr (agreeAt_drop l 18 (10 * i) 10) e
  unfold parseRosterItem
  cases it with
  | record r =>
    constructor
    · intro h; split at h; cases h; split at h <;> cases h
    · rintro ⟨h, -⟩; simp [SnapItem.wf] at h
  | roster r =>
    simp only [SnapItem.wf, itemLength, ItemAt, standsAt_bytes32, getD_eq_byteAt, Nat.zero_add, Bool.and_eq_true, decide_eq_true_eq,
      List.all_eq_true, true_and]
    constructor
    · intro h
      split at h; cases h
      rename_i h1
      split at h; cases h
      rename_i es hes
      cases h
      obtain ⟨o1, o2, o3⟩ := parseRosterEntries_iff.mp hes
      simp only [Bool.or_eq_true, decide_eq_true_eq, not_or, not_not, ne_eq, decide_not, Bool.not_eq_true',
        decide_eq_false_iff_not] at h1
      refine ⟨⟨⟨o1, ?_⟩, o2⟩, ?_, ?_, ?_, rfl, rfl, rfl, rfl, rfl, fun i e he => (hent i e).mp (o3 i e he)⟩
      · simp only; omega
      · simp only [o1]; omega
      · simp only [o1]
      · simp only [o1]; exact h1.1.2
    · rintro ⟨⟨⟨hl, hs⟩, hwf⟩, hlen, rfl, h0, h1, h5, h9, h13, h14, he⟩
      subst hl
      have hes : parseRosterEntries r.entries.length r.entries.length (l.drop 18) = some r.entries :=
        parseRosterEntries_iff.mpr ⟨rfl, hwf, fun i e hi => (hent i e).mpr (he i e hi)⟩
      rw [if_neg (by simp [h0, h13]; omega), hes]
      simp only [h1, h5, h9, h13, h14]

/-- Nine bytes are accepted as the claim that they hold (R116). -/
theorem parseClaim_iff {n : Nat} {l : List Byte} {st : ClaimState} {c : Claim} :
    parseClaim n l = some (st, c) ↔ c.wf n = true ∧ ClaimAt l 0 st c := by
  have hm : ∀ (k : Nat) (m : Mode), modeOf k = some m ↔ k = (match m with | .shared => 1 | .exclusive => 2) := by
    intro k m
    unfold modeOf
    cases m <;> (repeat' split) <;> simp_all
  have hst : ∀ (k : Nat) (st : ClaimState), (if k = 1 then some ClaimState.holding else if k = 2 then some .waiting else none)
      = some st ↔ k = (match st with | .holding => 1 | .waiting => 2) := by
    intro k st
    cases st <;> (repeat' split) <;> simp_all
  unfold parseClaim ClaimAt
  simp only [standsAt_bytes32, standsAt_bytes16, Nat.zero_add, getD_eq_byteAt, Claim.wf, Bool.and_eq_true,
    decide_eq_true_eq, Config.maxLease]
  constructor
  · intro h
    split at h
    · rename_i s m h1 h2
      split at h; cases h
      rename_i h3
      cases h
      simp only [Bool.or_eq_true, decide_eq_true_eq, not_or] at h3
      refine ⟨⟨Nat.lt_of_not_le h3.1, Nat.le_of_not_lt h3.2⟩, rfl, (hst _ _).mp h1, (hm _ _).mp h2, ?_, rfl, rfl, ?_⟩
      · cases (byteAt l 1).getLsbD 4 <;> rfl
      · intro e he; split at he <;> cases he; rfl
    · cases h
  · obtain ⟨cs, cm, ct, cl, ce⟩ := c
    simp only
    rintro ⟨⟨w1, w2⟩, rfl, h1, h2, h3, rfl, rfl, h4⟩
    simp only [(hst _ _).mpr h1, (hm _ _).mpr h2]
    rw [if_neg (by simp only [Bool.or_eq_true, decide_eq_true_eq, not_or]; omega), h3]
    cases ce with
    | none => rfl
    | some e => simp [h4 e rfl]

/-- Claims are accepted as those that the bytes hold, in their order (R116). -/
theorem parseClaims_iff {n : Nat} : ∀ {k : Nat} {l : List Byte} {cs : List (ClaimState × Claim)},
    parseClaims n k l = some cs ↔
      cs.length = k ∧ (∀ x ∈ cs, x.2.wf n = true) ∧ ∀ i x, cs[i]? = some x → ClaimAt l (9 * i) x.1 x.2
  | 0, l, cs => by
    simp only [parseClaims, Option.some.injEq]
    constructor
    · rintro rfl; simp
    · rintro ⟨h, -⟩; exact (List.length_eq_zero_iff.mp h).symm
  | k + 1, l, cs => by
    cases cs with
    | nil => simp only [parseClaims]; split <;> simp
    | cons x xs =>
      have e : parseClaims n (k + 1) l = some (x :: xs)
          ↔ parseClaim n (l.take 9) = some x ∧ parseClaims n k (l.drop 9) = some xs := by
        simp only [parseClaims]
        cases parseClaim n (l.take 9) <;> cases parseClaims n k (l.drop 9) <;> simp
      obtain ⟨st, c⟩ := x
      rw [e, parseClaim_iff, parseClaims_iff, forall_getElem?_cons]
      have h0 : ClaimAt (l.take 9) 0 st c ↔ ClaimAt l (9 * 0) st c :=
        ClaimAt.congr (by simpa using agreeAt_drop_take l 0 9) st c
      have h1 : ∀ (i : Nat) (y : ClaimState × Claim), ClaimAt (l.drop 9) (9 * i) y.1 y.2 ↔ ClaimAt l (9 * (i + 1)) y.1 y.2 := fun i (y : ClaimState × Claim) =>
        ClaimAt.congr (by rw [Nat.mul_add, Nat.add_comm (9 * i)]; exact agreeAt_drop l 9 (9 * i) 9) y.1 y.2
      simp only [h0, h1, List.length_cons, Nat.add_right_cancel_iff, List.forall_mem_cons]
      tauto

/-- Every claim of a record item is a holder or a waiter. -/
theorem claimsIn_length (cs : List (ClaimState × Claim)) :
    (claimsIn .holding cs).length + (claimsIn .waiting cs).length = cs.length := by
  induction cs with
  | nil => rfl
  | cons c cs ih =>
    obtain ⟨st, c⟩ := c
    cases st <;> simp [claimsIn] at ih ⊢ <;> omega

/-- Claims with no HOLDING one after a WAITING one are the holders and then the waiters (R116). -/
theorem holdersFirst_iff {cs : List (ClaimState × Claim)} : holdersFirst cs = true ↔
    cs = (claimsIn .holding cs).map (Prod.mk .holding) ++ (claimsIn .waiting cs).map (Prod.mk .waiting) := by
  have all_waiting : ∀ l : List (ClaimState × Claim), (∀ x ∈ l, x.1 = .waiting) →
      claimsIn .holding l = [] ∧ (claimsIn .waiting l).map (Prod.mk .waiting) = l := by
    intro l
    induction l with
    | nil => intro _; exact ⟨rfl, rfl⟩
    | cons x l ih =>
      intro h
      obtain ⟨st, c⟩ := x
      obtain rfl : st = .waiting := h (st, c) (by simp)
      have := ih fun y hy => h y (by simp [hy])
      exact ⟨this.1, congrArg (_ :: ·) this.2⟩
  induction cs with
  | nil => simp [holdersFirst, claimsIn]
  | cons x cs ih =>
    obtain ⟨st, c⟩ := x
    cases st with
    | holding =>
      have e : claimsIn .holding ((.holding, c) :: cs) = c :: claimsIn .holding cs
          ∧ claimsIn .waiting ((.holding, c) :: cs) = claimsIn .waiting cs := ⟨rfl, rfl⟩
      rw [e.1, e.2, holdersFirst]
      exact ih.trans (by simp)
    | waiting =>
      have e : claimsIn .holding ((.waiting, c) :: cs) = claimsIn .holding cs
          ∧ claimsIn .waiting ((.waiting, c) :: cs) = c :: claimsIn .waiting cs := ⟨rfl, rfl⟩
      rw [e.1, e.2, holdersFirst, Bool.and_eq_true]
      constructor
      · rintro ⟨h, -⟩
        have := all_waiting cs (by simpa using h)
        rw [this.1]
        exact congrArg (_ :: ·) this.2.symm
      · intro h
        have hn : claimsIn .holding cs = [] := by
          cases hh : claimsIn .holding cs with
          | nil => rfl
          | cons y ys => rw [hh] at h; cases h
        rw [hn] at h
        simp only [List.map_nil, List.nil_append, List.map_cons, List.cons.injEq, true_and] at h
        refine ⟨?_, ih.mpr (by rw [hn]; exact h)⟩
        rw [List.all_eq_true]
        intro y hy
        rw [h] at hy
        obtain ⟨z, -, rfl⟩ := List.mem_map.mp hy
        rfl

/-- Holders and then waiters give their lists back. -/
theorem claimsIn_runs (hs ws : List Claim) :
    claimsIn .holding (hs.map (Prod.mk .holding) ++ ws.map (Prod.mk .waiting)) = hs
      ∧ claimsIn .waiting (hs.map (Prod.mk .holding) ++ ws.map (Prod.mk .waiting)) = ws := by
  constructor <;> simp [claimsIn, List.filter_map, Function.comp_def]

/-- A property of holders and then waiters, by their places. -/
theorem forall_runs (hs ws : List Claim) (P : Nat → ClaimState → Claim → Prop) :
    (∀ k x, (hs.map (Prod.mk ClaimState.holding) ++ ws.map (Prod.mk .waiting))[k]? = some x → P k x.1 x.2)
      ↔ (∀ k c, hs[k]? = some c → P k .holding c) ∧ ∀ k c, ws[k]? = some c → P (hs.length + k) .waiting c := by
  constructor
  · intro h
    refine ⟨fun k c hk => h k (.holding, c) ?_, fun k c hk => h (hs.length + k) (.waiting, c) ?_⟩
    · rw [List.getElem?_append_left (by simpa using (List.getElem?_eq_some_iff.mp hk).1)]; simp [hk]
    · rw [List.getElem?_append_right (by simp)]; simp [hk]
  · rintro ⟨h1, h2⟩ k x hk
    by_cases hl : k < hs.length
    · rw [List.getElem?_append_left (by simpa using hl), List.getElem?_map] at hk
      obtain ⟨c, hc, rfl⟩ := Option.map_eq_some_iff.mp hk
      exact h1 k c hc
    · rw [List.getElem?_append_right (by simpa using hl), List.getElem?_map] at hk
      obtain ⟨c, hc, rfl⟩ := Option.map_eq_some_iff.mp hk
      have := h2 _ c hc
      simp only [List.length_map] at this
      rwa [Nat.add_sub_cancel' (by omega)] at this

/-- The record item at the head of a byte string is the one that it holds, with the bytes behind it (R116). -/
theorem parseRecordItem_iff {n i : Nat} {l rest : List Byte} {it : SnapItem} (hi : i ≠ 0) :
    parseRecordItem n l = some (it, rest) ↔
      it.wf n i = true ∧ itemLength it ≤ l.length ∧ rest = l.drop (itemLength it) ∧ ItemAt l 0 it := by
  have hcl : ∀ k st c, ClaimAt (l.drop 3) (9 * k) st c ↔ ClaimAt l (3 + 9 * k) st c := fun k st c =>
    ClaimAt.congr (agreeAt_drop l 3 (9 * k) 9) st c
  unfold parseRecordItem
  cases it with
  | roster r =>
    constructor
    · intro h; simp only at h; split at h; cases h; split at h; cases h; split at h <;> cases h
    · rintro ⟨h, -⟩; simp [SnapItem.wf, hi] at h
  | record r =>
    obtain ⟨res, hs, ws⟩ := r
    simp only [itemLength, ItemAt, standsAt_bytes16, getD_eq_byteAt, Nat.zero_add]
    have stations : (hs.map (Prod.mk ClaimState.holding) ++ ws.map (Prod.mk ClaimState.waiting)).map
          (fun x : ClaimState × Claim => x.2.station)
        = (hs ++ ws).map (·.station) := by simp [Function.comp_def]
    constructor
    · intro h
      split at h; cases h
      rename_i h1
      split at h; cases h
      rename_i cs hcs
      split at h
      · rename_i h2
        cases h
        simp only [Bool.and_eq_true, decide_eq_true_eq] at h2
        obtain ⟨o1, o2, o3⟩ := parseClaims_iff.mp hcs
        have hsplit := holdersFirst_iff.mp h2.2
        have hlen := claimsIn_length cs
        simp only [Bool.or_eq_true, decide_eq_true_eq, not_or] at h1
        have hruns := (forall_runs (claimsIn .holding cs) (claimsIn .waiting cs)
          (fun k st c => ClaimAt l (3 + 9 * k) st c)).mp (by
            rw [← hsplit]; intro k x hk; exact (hcl k _ _).mp (o3 k x hk))
        have hwf : ∀ st, ∀ c ∈ claimsIn st cs, c.wf n = true := by
          intro st c hc
          simp only [claimsIn, List.mem_map, List.mem_filter] at hc
          obtain ⟨x, ⟨hx, -⟩, rfl⟩ := hc
          exact o2 x hx
        have hnod := h2.1
        rw [hsplit, stations] at hnod
        refine ⟨?_, by omega, by rw [hlen, o1], rfl, by omega, hruns.1, hruns.2⟩
        simp only [SnapItem.wf, ResRecord.wf, Bool.and_eq_true, decide_eq_true_eq, List.all_eq_true]
        exact ⟨hi, ⟨⟨⟨⟨h1.1.1.2, by omega⟩, by omega⟩, hwf _⟩, hwf _⟩, hnod⟩
      · cases h
    · rintro ⟨hw, hlen, rfl, rfl, h2, hh, hwt⟩
      simp only [SnapItem.wf, ResRecord.wf, Bool.and_eq_true, decide_eq_true_eq, List.all_eq_true] at hw
      obtain ⟨-, ⟨⟨⟨⟨w1, w2⟩, w3⟩, w4⟩, w5⟩, w6⟩ := hw
      have hcs : parseClaims n (byteAt l 2).toNat (l.drop 3)
          = some (hs.map (Prod.mk .holding) ++ ws.map (Prod.mk .waiting)) := by
        refine parseClaims_iff.mpr ⟨by simp [h2], ?_, ?_⟩
        · intro x hx
          simp only [List.mem_append, List.mem_map] at hx
          rcases hx with ⟨c, hc, rfl⟩ | ⟨c, hc, rfl⟩
          · exact w4 c hc
          · exact w5 c hc
        · simp only [hcl]
          exact (forall_runs hs ws (fun k st c => ClaimAt l (3 + 9 * k) st c)).mpr ⟨hh, hwt⟩
      obtain ⟨c1, c2⟩ := claimsIn_runs hs ws
      have hf : holdersFirst (hs.map (Prod.mk .holding) ++ ws.map (Prod.mk .waiting)) = true :=
        holdersFirst_iff.mpr (by rw [c1, c2])
      have w1' : word16At l 0 ≠ 0 := w1
      have w2' : 1 ≤ hs.length + ws.length := w2
      have w3' : hs.length + ws.length ≤ n := w3
      have h2' : (byteAt l 2).toNat = hs.length + ws.length := h2
      have hlen' : 3 + 9 * (hs.length + ws.length) ≤ l.length := hlen
      rw [if_neg (by
        simp only [Bool.or_eq_true, decide_eq_true_eq, not_or]
        exact ⟨⟨⟨by omega, w1'⟩, by omega⟩, by omega⟩), hcs]
      simp only
      rw [if_pos (by rw [Bool.and_eq_true, decide_eq_true_eq, hf]; exact ⟨by rw [stations]; exact w6, rfl⟩), c1, c2, h2]

/-- Items are accepted exactly when they are in range, stand one behind another from the head, and fill the byte string
(R115, R116). -/
theorem parseItems_iff {n : Nat} : ∀ {k i : Nat} {l : List Byte} {items : List SnapItem}, parseItems n i k l = some items ↔
    items.length = k ∧ itemsWf n i items = true ∧ l.length = (items.map itemLength).sum ∧ ItemsAt l 0 items
  | 0, i, l, items => by
    simp only [parseItems]
    constructor
    · intro h; split at h <;> cases h; rename_i h; subst h; exact ⟨rfl, rfl, rfl, trivial⟩
    · rintro ⟨h, -, hl, -⟩
      obtain rfl := List.length_eq_zero_iff.mp h
      rw [if_pos (List.length_eq_zero_iff.mp hl)]
  | k + 1, i, l, items => by
    have head : ∀ it rest, (if i = 0 then parseRosterItem n l else parseRecordItem n l) = some (it, rest) ↔
        it.wf n i = true ∧ itemLength it ≤ l.length ∧ rest = l.drop (itemLength it) ∧ ItemAt l 0 it := by
      intro it rest
      split
      · rename_i h; subst h; exact parseRosterItem_iff
      · rename_i h; exact parseRecordItem_iff h
    have tail : ∀ (it : SnapItem) (rest : List SnapItem), itemLength it ≤ l.length →
        (parseItems n (i + 1) k (l.drop (itemLength it)) = some rest ↔ rest.length = k ∧ itemsWf n (i + 1) rest = true
          ∧ l.length = itemLength it + (rest.map itemLength).sum ∧ ItemsAt l (itemLength it) rest) := by
      intro it rest hl
      rw [parseItems_iff, ItemsAt.congr rest (by simpa using agreeAt_drop l (itemLength it) 0 _), List.length_drop]
      have : l.length - itemLength it = (rest.map itemLength).sum ↔ l.length = itemLength it + (rest.map itemLength).sum := by
        omega
      rw [this]
    simp only [parseItems]
    constructor
    · intro h
      split at h
      · cases h
      · rename_i it r hr
        obtain ⟨its, h1, rfl⟩ := Option.map_eq_some_iff.mp h
        obtain ⟨a, b, rfl, d⟩ := (head _ _).mp hr
        obtain ⟨t1, t2, t3, t4⟩ := (tail it its b).mp h1
        exact ⟨by simp [t1], by simp [itemsWf, a, t2], by simp [t3], d, by simpa using t4⟩
    · rintro ⟨hlen, hw, hl, hat⟩
      cases items with
      | nil => cases hlen
      | cons it its =>
        simp only [itemsWf, Bool.and_eq_true] at hw
        simp only [List.map_cons, List.sum_cons] at hl
        simp only [ItemsAt, Nat.zero_add] at hat
        have hh := (head it (l.drop (itemLength it))).mpr ⟨hw.1, by omega, rfl, hat.1⟩
        rw [hh]
        simp only
        rw [(tail it its (by omega)).mpr ⟨by simpa using hlen, hw.2, hl, hat.2⟩]
        rfl

/-- A transfer frame is accepted exactly when it is in range and its fields stand in the bytes (R106, R115). Offsets count
from the byte after the sync pattern. -/
theorem parseTransfer_iff {n l check t} (hl16 : 16 ≤ l.length) : parseTransfer n l check = some t ↔
    t.check = check ∧ t.wf n = true ∧ byteAt l 2 = byteOf (bitValue t.moreFollows) ∧ (byteAt l 3).toNat = t.sender
      ∧ (byteAt l 4).toNat = t.joiner ∧ word32At l 5 = t.snapRotation ∧ word32At l 9 = t.donorRotation
      ∧ (byteAt l 13).toNat = t.first ∧ (byteAt l 14).toNat = t.items.length ∧ (byteAt l 15).toNat = t.total
      ∧ ItemsAt l 16 t.items ∧ l.length = 16 + (t.items.map itemLength).sum := by
  have hit : ∀ items : List SnapItem, ItemsAt (l.drop 16) 0 items ↔ ItemsAt l 16 items := fun items =>
    ItemsAt.congr items (agreeAt_drop l 16 0 _)
  unfold parseTransfer
  simp only [Config.snapshotItems, Config.itemsPerTransfer]
  constructor
  · intro h
    split at h; cases h
    split at h; cases h
    rename_i h1 h2
    split at h; cases h
    rename_i items hitems
    cases h
    obtain ⟨o1, o2, o3, o4⟩ := parseItems_iff.mp hitems
    rw [List.length_drop] at o3
    simp only [Bool.or_eq_true, decide_eq_true_eq, not_or] at h2
    refine ⟨rfl, ?_, transferFlags_eq _ (by omega), rfl, rfl, rfl, rfl, rfl, o1.symm, rfl, (hit _).mp o4, by show _ = 16 + (items.map itemLength).sum; omega⟩
    simp only [TransferFrame.wf, Bool.and_eq_true, decide_eq_true_eq, Config.snapshotItems, Config.itemsPerTransfer, o2,
      and_true]
    omega
  · rintro ⟨rfl, hw, hfl, hs, hj, hsr, hdr, hf, hc, ht, hat, hl⟩
    simp only [TransferFrame.wf, Bool.and_eq_true, decide_eq_true_eq, Config.snapshotItems, Config.itemsPerTransfer] at hw
    have hitems : parseItems n (byteAt l 13).toNat (byteAt l 14).toNat (l.drop 16) = some t.items :=
      parseItems_iff.mpr ⟨hc.symm, by rw [hf]; exact hw.2, by rw [List.length_drop]; omega, (hit _).mpr hat⟩
    have bits : ∀ a : Bool, (byteOf (bitValue a)).getLsbD 0 = a ∧ (byteOf (bitValue a)).toNat / 2 = 0 := by decide
    obtain ⟨b0, b1⟩ := bits t.moreFollows
    rw [if_neg (by rw [hfl, b1]; simp), if_neg (by simp only [Bool.or_eq_true, decide_eq_true_eq, not_or]; omega), hitems]
    simp only [hfl, b0, hs, hj, hsr, hdr, hf, ht]

/-! ### Frames -/

/-- A kind byte stands for the kind whose code it is. -/
theorem streamKindOf_iff {b : Byte} {f : StreamFrame} : streamKindOf b = some f.kind ↔ b = kindCode (.stream f) := by
  obtain ⟨kind⟩ := f
  unfold streamKindOf kindCode
  cases kind <;> simp only <;> (repeat' split) <;> simp_all

/-- Between the sync pattern and the frame check, what is accepted is exactly a frame in range that the bytes carry (R106,
checks 5 to 8). -/
theorem parseFrame_iff {n : Nat} {bytes : List Byte} {f : Frame} (hlen : 29 ≤ bytes.length) :
    parseFrame n ((bytes.drop 2).take (bytes.length - 6)) (word32At bytes (bytes.length - 4)) = some f
      ↔ f.wf n = true ∧ CarriedBy bytes f := by
  have hag : ∀ i w, i + w ≤ bytes.length - 6 →
      AgreeAt ((bytes.drop 2).take (bytes.length - 6)) bytes i (2 + i) w := by
    intro i w hw
    have := (agreeAt_drop_take bytes 2 (bytes.length - 6)).part i w hw
    rwa [Nat.zero_add] at this
  have hl : ((bytes.drop 2).take (bytes.length - 6)).length = bytes.length - 6 := by simp; omega
  generalize (bytes.drop 2).take (bytes.length - 6) = l at hag hl
  have hb : ∀ i, i < bytes.length - 6 → byteAt l i = bytes.getD (2 + i) 0 := fun i hi => hag i 1 (by omega) 0 (by omega)
  have hw : ∀ i w, i + 4 ≤ bytes.length - 6 → (word32At l i = w ↔ StandsAt bytes (2 + i) (bytes32 w)) := fun i w hi => by
    rw [← standsAt_bytes32]
    exact (hag i 4 hi).stands 0 (bytes32 w) (by simp)
  cases f with
  | stream f =>
    have hent : ∀ i q, i < f.ops.length → 23 + 8 * f.ops.length ≤ bytes.length - 6 →
        (EntryAt l (23 + 8 * i) q ↔ EntryAt bytes (25 + 8 * i) q) := fun i q hi hll => by
      have := hag (23 + 8 * i) 8 (by omega)
      rw [show 2 + (23 + 8 * i) = 25 + 8 * i by omega] at this
      exact EntryAt.congr this q
    have hents : 23 + 8 * f.ops.length ≤ bytes.length - 6 →
        ((∀ i q, f.ops[i]? = some q → EntryAt l (23 + 8 * i) q) ↔ ∀ i q, f.ops[i]? = some q → EntryAt bytes (25 + 8 * i) q) :=
      fun hll => forall_congr' fun i => forall_congr' fun q => forall_congr' fun hq =>
        hent i q (List.getElem?_eq_some_iff.mp hq).1 hll
    have step : parseFrame n l (word32At bytes (bytes.length - 4)) = some (.stream f)
        ↔ streamKindOf (bytes.getD (2 + 1) 0) = some f.kind
          ∧ parseStream n f.kind l (word32At bytes (bytes.length - 4)) = some f := by
      unfold parseFrame
      rw [hb 1 (by omega)]
      split
      · rename_i h7
        rw [h7]
        simp [streamKindOf]
      · cases hk : streamKindOf (bytes.getD (2 + 1) 0) with
        | none => simp
        | some k =>
          simp only [Option.map_eq_some_iff, Frame.stream.injEq, exists_eq_right, Option.some.injEq]
          constructor
          · intro h
            have := (parseStream_iff.mp h).1
            exact ⟨this.symm, by rw [this]; exact h⟩
          · rintro ⟨rfl, h⟩; exact h
    rw [step, streamKindOf_iff, parseStream_iff]
    simp only [Frame.wf, CarriedBy, standsAt_bytes32 (i := bytes.length - 4)]
    rw [hb 2 (by omega), hb 3 (by omega), hb 12 (by omega), hb 21 (by omega), hb 22 (by omega), hw 4 _ (by omega)]
    simp only [hw 8 _ (show 8 + 4 ≤ bytes.length - 6 by omega), hw 13 _ (show 13 + 4 ≤ bytes.length - 6 by omega),
      hw 17 _ (show 17 + 4 ≤ bytes.length - 6 by omega), hl]
    constructor
    · rintro ⟨a0, -, a1, a2, a3, a4, a5, a6, a7, a8, a9, a10, a11⟩
      exact ⟨a2, a0, a3, a4, a5, a6, a7, a8, a9, (hents (by omega)).mp a10, by omega, a1.symm⟩
    · rintro ⟨a2, a0, a3, a4, a5, a6, a7, a8, a9, a10, a11, a1⟩
      exact ⟨a0, trivial, a1.symm, a2, a3, a4, a5, a6, a7, a8, a9, (hents (by omega)).mpr a10, by omega⟩
  | transfer t =>
    have step : parseFrame n l (word32At bytes (bytes.length - 4)) = some (.transfer t)
        ↔ bytes.getD (2 + 1) 0 = 7 ∧ parseTransfer n l (word32At bytes (bytes.length - 4)) = some t := by
      unfold parseFrame
      rw [hb 1 (by omega)]
      split
      · rename_i h7
        simp only [h7, true_and, Option.map_eq_some_iff, Frame.transfer.injEq, exists_eq_right]
      · rename_i h7
        simp only [h7, false_and, iff_false]
        split <;> simp
    rw [step, parseTransfer_iff (by omega)]
    have hits : (t.items.map itemLength).sum + 16 ≤ bytes.length - 6 → (ItemsAt l 16 t.items ↔ ItemsAt bytes 18 t.items) :=
      fun hll => ItemsAt.congr t.items (hag 16 _ (by omega))
    simp only [Frame.wf, CarriedBy, standsAt_bytes32 (i := bytes.length - 4)]
    rw [hb 2 (by omega), hb 3 (by omega), hb 4 (by omega), hb 13 (by omega), hb 14 (by omega), hb 15 (by omega),
      hw 5 _ (by omega), hw 9 _ (by omega), hl]
    constructor
    · rintro ⟨a0, a1, a2, a3, a4, a5, a6, a7, a8, a9, a10, a11, a12⟩
      exact ⟨a2, a0, a3, a4, a5, a6, a7, a8, a9, a10, (hits (by omega)).mp a11, by omega, a1.symm⟩
    · rintro ⟨a2, a0, a3, a4, a5, a6, a7, a8, a9, a10, a11, a12, a1⟩
      exact ⟨a0, a1.symm, a2, a3, a4, a5, a6, a7, a8, a9, a10, (hits (by omega)).mpr a11, by omega⟩

end Sys2Proof.Machine
end

