-- ==== Sys2Proof/Laws/Requests.lean ====
section
/-! SUPPORT. The moves of a request keep every live request in exactly one place (R156): one lemma per move. -/

namespace Sys2Proof.Machine

/-- Dropping the tags at the head of a list without repetition leaves the rest. -/
theorem dropTags_prefix (qs : List Request) (rest : List Byte) : dropTags qs (qs.map (·.tag) ++ rest) = rest := by
  induction qs with
  | nil => rfl
  | cons q qs ih => simpa [dropTags, dropTag] using ih

/-- Dropping tags that stand behind others leaves the others. -/
theorem dropTags_suffix (qs : List Request) (front : List Byte) (h : (front ++ qs.map (·.tag)).Nodup) :
    dropTags qs (front ++ qs.map (·.tag)) = front := by
  induction qs with
  | nil => simp [dropTags]
  | cons q qs ih =>
    have hq : q.tag ∉ front := by
      intro hm
      exact (List.nodup_append.mp h).2.2 _ hm q.tag (by simp) rfl
    have h' : (front ++ qs.map (·.tag)).Nodup :=
      h.sublist (by simp)
    have := ih h'
    simp only [dropTags, List.foldl_cons, dropTag] at this ⊢
    rw [List.erase_append_right _ hq]
    simpa using this

section
variable {u : Rqu}

theorem RequestsSound.cleared : RequestsSound Rqu.cleared := by simp [RequestsSound, Rqu.cleared]

theorem RequestsSound.accept {q : Request} (h : RequestsSound u) (new : q.tag ∉ u.live) (room : u.live.length < 32) :
    RequestsSound (u.accept q) := by
  obtain ⟨h1, h2, h3⟩ := h
  refine ⟨by simp [Rqu.accept, h1], ?_, by simp [Rqu.accept]; omega⟩
  exact List.nodup_append.mpr ⟨h2, by simp, by
    intro a ha b hb
    simp only [List.mem_singleton] at hb
    subst hb
    exact fun e => new (e ▸ ha)⟩

theorem RequestsSound.assemble (id : FrameId) (h : RequestsSound u) : RequestsSound (u.assemble id) := by
  unfold Rqu.assemble
  split
  · exact h
  · obtain ⟨h1, h2, h3⟩ := h
    refine ⟨?_, h2, h3⟩
    simp only [h1, List.append_assoc]
    rw [List.take_append_drop]

theorem RequestsSound.requeue (h : RequestsSound u) : RequestsSound u.requeue := by
  obtain ⟨h1, h2, h3⟩ := h
  exact ⟨by simp [Rqu.requeue, h1], h2, h3⟩

theorem RequestsSound.endResults (k : Nat) (h : RequestsSound u) : RequestsSound (u.endResults k) := by
  obtain ⟨h1, h2, h3⟩ := h
  have e : u.live = (u.inflight.take k).map (·.tag) ++ (u.inflight.drop k ++ u.outgoing).map (·.tag) := by
    rw [h1, ← List.map_append, ← List.append_assoc, List.take_append_drop]
  have e' : (u.endResults k).live = (u.inflight.drop k ++ u.outgoing).map (·.tag) := by
    simp only [Rqu.endResults]; rw [e]; exact dropTags_prefix _ _
  have hs : ((u.inflight.drop k ++ u.outgoing).map (·.tag)).Sublist u.live := by
    rw [e]; exact List.sublist_append_right _ _
  refine ⟨by rw [e']; rfl, ?_, ?_⟩
  · rw [e']; exact h2.sublist hs
  · rw [e']; exact hs.length_le.trans h3

theorem RequestsSound.frameCommitted (id : FrameId) (h : RequestsSound u) : RequestsSound (u.frameCommitted id) := by
  unfold Rqu.frameCommitted
  split
  · exact h
  · exact h

theorem RequestsSound.cancelTag (t : Byte) (q : Request) (hq : u.queuedWith t = some q) (h : RequestsSound u) :
    RequestsSound (u.cancelTag t) := by
  obtain ⟨h1, h2, h3⟩ := h
  obtain ⟨ht, before, after, ho, hb⟩ := List.find?_eq_some_iff_append.mp hq
  have hqt : q.tag = t := by simpa using ht
  have he : u.outgoing.eraseP (fun q => q.tag == t) = before ++ after := by
    rw [ho, List.eraseP_append_right]
    · simp [hqt]
    · intro b hbm; have := hb b hbm; simpa using this
  have hl : u.live = (u.inflight ++ before).map (·.tag) ++ q.tag :: after.map (·.tag) := by
    rw [h1, ho]; simp
  have hn : q.tag ∉ (u.inflight ++ before).map (·.tag) := by
    intro hm
    rw [hl] at h2
    exact (List.nodup_append.mp h2).2.2 _ hm q.tag (by simp) rfl
  have e : (u.cancelTag t).live = (u.inflight ++ before).map (·.tag) ++ after.map (·.tag) := by
    simp only [Rqu.cancelTag, dropTag, ← hqt]
    rw [hl, List.erase_append_right _ hn]
    simp
  have hs : ((u.inflight ++ before).map (·.tag) ++ after.map (·.tag)).Sublist u.live := by
    rw [hl]; simp
  refine ⟨?_, ?_, ?_⟩
  · rw [e]; simp [Rqu.cancelTag, he]
  · rw [e]; exact h2.sublist hs
  · rw [e]; exact hs.length_le.trans h3

end

section
variable {s : State} (r : Word32)

theorem RequestsSound.abortInflight (h : RequestsSound s.rqu) : RequestsSound (s.abortInflight r).rqu := by
  have := h.endResults s.rqu.inflight.length
  simpa [RequestsSound, Rqu.endResults] using this

theorem RequestsSound.abortOutgoing (h : RequestsSound s.rqu) : RequestsSound (s.abortOutgoing r).rqu := by
  obtain ⟨h1, h2, h3⟩ := h
  have hl : s.rqu.live = s.rqu.inflight.map (·.tag) ++ s.rqu.outgoing.map (·.tag) := by rw [h1]; simp
  have e : dropTags s.rqu.outgoing s.rqu.live = s.rqu.inflight.map (·.tag) := by
    rw [hl]; exact dropTags_suffix _ _ (hl ▸ h2)
  have hs : (s.rqu.inflight.map (·.tag)).Sublist s.rqu.live := by rw [hl]; simp
  refine ⟨by simp [e], ?_, ?_⟩
  · simp only [State.abortOutgoing_rqu]; rw [e]; exact h2.sublist hs
  · simp only [State.abortOutgoing_rqu]; rw [e]; exact hs.length_le.trans h3

theorem RequestsSound.abortAll (h : RequestsSound s.rqu) : RequestsSound (s.abortAll r).rqu :=
  (h.abortInflight r).abortOutgoing r

theorem RequestsSound.abortDiscarded (k : Nat) (h : RequestsSound s.rqu) : RequestsSound (s.abortDiscarded k r).rqu :=
  h.endResults k

/-- After an abort of everything no tag is live (R169). -/
theorem RequestsSound.abortAll_live (h : RequestsSound s.rqu) : (s.abortAll r).rqu.live = [] := by
  have := (h.abortAll r).1
  simpa using this

end

end Sys2Proof.Machine
end

