-- ==== Sys2Proof/Laws/Table.lean ====
section
/-! SUPPORT. The operations on records, claims and counts: what a lookup and a count give after each of them, and which
roster entries the boundaries leave MEMBER. -/

namespace Sys2Proof.Machine

/-! ### Counts (R6, R7) -/

/-- One claim more of station `s`, and of no other (R7). -/
theorem countUp_get (v : Vector Nat 16) {s : Nat} (k : Nat) (h : s < 16) :
    (countUp v s)[k]?.getD 0 = if k = s then v[s]?.getD 0 + 1 else v[k]?.getD 0 := by
  unfold countUp
  by_cases e : k = s
  · subst e; simp [h]
  · rw [Vector.getElem?_setIfInBounds, if_neg (Ne.symm e), if_neg e]

/-- One claim fewer of station `s`, and of no other (R7). -/
theorem countDown_get (v : Vector Nat 16) {s : Nat} (k : Nat) (h : s < 16) :
    (countDown v s)[k]?.getD 0 = if k = s then v[s]?.getD 0 - 1 else v[k]?.getD 0 := by
  unfold countDown
  by_cases e : k = s
  · subst e; simp [h]
  · rw [Vector.getElem?_setIfInBounds, if_neg (Ne.symm e), if_neg e]

/-! ### Lookups (R1) -/

/-- A lookup finds a record of the number looked up. -/
theorem Tbu.find_resource {t : Tbu} {x : Word16} {r : ResRecord} (h : t.find x = some r) : r.resource = x := by
  simpa using List.find?_some h

/-- A record that a lookup finds is in the table. -/
theorem Tbu.find_mem {t : Tbu} {x : Word16} {r : ResRecord} (h : t.find x = some r) : r ∈ t.records :=
  List.mem_of_find?_eq_some h

/-- A lookup after the insertion of a new record (R8). -/
theorem find_insertRecord (x : ResRecord) (l : List ResRecord) (z : Word16)
    (new : l.find? (fun r => r.resource == x.resource) = none) :
    (insertRecord x l).find? (fun r => r.resource == z)
      = if x.resource = z then some x else l.find? (fun r => r.resource == z) := by
  induction l with
  | nil => by_cases hz : x.resource = z <;> simp [insertRecord, hz]
  | cons r rs ih =>
    unfold insertRecord
    split
    · by_cases hz : x.resource = z <;> simp [hz]
    · have hr : (r.resource == x.resource) = false := by
        by_contra hc
        simp at hc
        simp [hc] at new
      simp only [List.find?_cons, hr] at new
      have := ih new
      by_cases hz : r.resource = z
      · have : ¬ x.resource = z := fun e => by simp [hz, e] at hr
        simp [hz, this]
      · simp only [List.find?_cons, beq_false_of_ne hz]; exact this

/-- A lookup after a change of one record. -/
theorem find_modifyRecord (l : List ResRecord) (x z : Word16) (f : ResRecord → ResRecord)
    (hf : ∀ r, (f r).resource = r.resource) :
    (modifyRecord x f l).find? (fun r => r.resource == z)
      = if z = x then (l.find? (fun r => r.resource == z)).map f else l.find? (fun r => r.resource == z) := by
  induction l with
  | nil => simp [modifyRecord]
  | cons r rs ih =>
    unfold modifyRecord at ih ⊢
    rw [List.map_cons, List.find?_cons, List.find?_cons]
    by_cases hz : r.resource = z
    · by_cases hx : r.resource = x
      · simp [hx, hf, ← hz]
      · have hzx : ¬ z = x := fun e => hx (hz.trans e)
        simp only [if_neg hzx, hz, beq_self_eq_true]
    · have e : ((if r.resource = x then f r else r).resource == z) = false := by
        split
        · rw [hf]; exact beq_false_of_ne hz
        · exact beq_false_of_ne hz
      rw [e, beq_false_of_ne hz]; exact ih

/-- A lookup after a removal of claims (R9): the record without them. -/
theorem find_without (p : ClaimPick) (t : Tbu) (z : Word16) : (t.without p).find z = (t.find z).map (ResRecord.without p) := by
  unfold Tbu.find Tbu.without
  simp only
  induction t.records with
  | nil => rfl
  | cons r rs ih =>
    rw [List.map_cons, List.find?_cons, List.find?_cons]
    have : (r.without p).resource = r.resource := rfl
    rw [this]
    split
    · rfl
    · exact ih

/-- A removal that takes nothing from a record leaves it as it is. -/
theorem ResRecord.without_none {p : ClaimPick} {r : ResRecord} (h1 : ∀ c ∈ r.holders, p r.resource .holding c = false)
    (h2 : ∀ c ∈ r.waiters, p r.resource .waiting c = false) : r.without p = r := by
  have e1 : r.holders.filter (fun c => !p r.resource .holding c) = r.holders :=
    List.filter_eq_self.mpr (fun c hc => by simp [h1 c hc])
  have e2 : r.waiters.filter (fun c => !p r.resource .waiting c) = r.waiters :=
    List.filter_eq_self.mpr (fun c hc => by simp [h2 c hc])
  cases r
  simp only [ResRecord.without] at *
  simp [e1, e2]

/-- Grant passes leave a record that nothing touched (R13). -/
theorem passRecords_untouched (touched : List Word16) (r : Word32) (l : List ResRecord) (z : Word16) (h : z ∉ touched) :
    (passRecords touched r l).find? (fun x => x.resource == z) = l.find? (fun x => x.resource == z) := by
  unfold passRecords
  induction l with
  | nil => rfl
  | cons x xs ih =>
    by_cases ht : touched.contains x.resource = true
    · have hz : (x.resource == z) = false := beq_false_of_ne fun e => h (by simpa [e] using ht)
      have hp : ((x.passed r).resource == z) = false := hz
      rw [List.map_cons, List.filter_cons, List.find?_cons, hz, if_pos ht]
      split
      · rw [List.find?_cons, hp]; exact ih
      · exact ih
    · have hf : touched.contains x.resource = false := by simpa using ht
      rw [List.map_cons, List.filter_cons, if_neg ht, hf]
      simp only [Bool.false_and, Bool.not_false, if_true, List.find?_cons]
      split
      · rfl
      · exact ih

/-! ### Roster entries (R48) -/

/-- The entry that was set, and every other entry as it was. -/
theorem Tbu.entry_setEntry (t : Tbu) {k : Nat} (e : RosterEntry) (i : Nat) (h : k < 16) :
    (t.setEntry k e).entry i = if i = k then e else t.entry i := by
  unfold Tbu.setEntry Tbu.entry
  by_cases hi : i = k
  · subst hi; simp [h]
  · simp only
    rw [Vector.getElem?_setIfInBounds, if_neg (Ne.symm hi), if_neg hi]

/-- An entry beyond the 16 station numbers is NONE. -/
theorem Tbu.entry_beyond (t : Tbu) {k : Nat} (h : 16 ≤ k) : t.entry k = .vacant := by
  simp [Tbu.entry, h]

/-- Every MEMBER of `b` was MEMBER in `a`. -/
def NoNewMember (a b : App) : Prop := ∀ k, (b.tbu.entry k).isMember = true → (a.tbu.entry k).isMember = true

theorem NoNewMember.refl (a : App) : NoNewMember a a := fun _ h => h

theorem NoNewMember.trans {a b c : App} (h : NoNewMember a b) (k : NoNewMember b c) : NoNewMember a c :=
  fun i x => h i (k i x)

theorem NoNewMember.of_roster {a b : App} (h : b.tbu.roster = a.tbu.roster) : NoNewMember a b := by
  intro k; simp [Tbu.entry, h]

theorem NoNewMember.vacate (a : App) (k : Nat) : NoNewMember a (a.setEntry k .vacant) := by
  intro i h
  by_cases hk : k < 16
  · have e : (a.setEntry k .vacant).tbu.entry i = if i = k then .vacant else a.tbu.entry i :=
      Tbu.entry_setEntry a.tbu .vacant i hk
    rw [e] at h
    split at h
    · simp [RosterEntry.isMember] at h
    · exact h
  · simpa [App.setEntry, Tbu.setEntry, Tbu.entry, Vector.setIfInBounds_eq_of_size_le (Nat.le_of_not_lt hk)] using h

theorem NoNewMember.cancelJoin (a : App) (k : Nat) (r : Word32) : NoNewMember a (a.cancelJoin k r) :=
  (NoNewMember.of_roster rfl : NoNewMember a (a.purge k r)).trans (NoNewMember.vacate _ _)

theorem NoNewMember.cancelServed (a : App) (k : Nat) (r : Word32) : NoNewMember a (a.cancelServed k r) := by
  unfold App.cancelServed
  repeat' split
  · exact NoNewMember.refl a
  · exact NoNewMember.cancelJoin a _ _
  · exact NoNewMember.refl a

theorem NoNewMember.absenceAt (m : Nat) (b : Word32) (a : App) (k : Nat) : NoNewMember a (App.absenceAt m b a k) := by
  unfold App.absenceAt
  repeat' split
  · exact ((NoNewMember.of_roster rfl : NoNewMember a (a.purge k b)).trans (NoNewMember.cancelServed _ _ _)).trans
      (NoNewMember.vacate _ _)
  all_goals exact NoNewMember.refl a

theorem NoNewMember.absence (n m : Nat) (b : Word32) (a : App) : NoNewMember a (a.absence n m b) := by
  unfold App.absence
  induction List.range n generalizing a with
  | nil => exact NoNewMember.refl a
  | cons k l ih => exact (NoNewMember.absenceAt m b a k).trans (ih _)

/-- A boundary makes no station MEMBER (R60 to R63). -/
theorem NoNewMember.boundary (n m : Nat) (a : App) (b : Word32) : NoNewMember a (a.boundary n m b) := by
  have h1 : NoNewMember a { a with touched := [] } := NoNewMember.of_roster rfl
  have h2 : NoNewMember ({ a with touched := [] } : App) (({ a with touched := [] } : App).joinExpiry b) := by
    unfold App.joinExpiry
    repeat' split
    all_goals first | exact NoNewMember.refl _ | exact NoNewMember.cancelJoin _ _ _
  exact ((h1.trans h2).trans (NoNewMember.absence n m b _)).trans (NoNewMember.of_roster rfl)

/-- The boundaries that a frame brings make no station MEMBER (R59). -/
theorem NoNewMember.frameBoundaries (n m : Nat) (f : StreamFrame) (t : Tbu) :
    NoNewMember t.begin (frameBoundaries n m f t) := by
  have run : ∀ (from_ : Word32) (k : Nat) (a : App), NoNewMember a (App.boundaryRun n m from_ k a) := by
    intro from_ k a
    induction k with
    | zero => exact NoNewMember.refl a
    | succ k ih => exact ih.trans (NoNewMember.boundary _ _ _ _)
  unfold Machine.frameBoundaries
  split
  · exact NoNewMember.refl _
  · unfold App.boundaries
    split
    · exact NoNewMember.refl _
    · split
      · exact (run _ _ _).trans (NoNewMember.of_roster rfl)
      · exact NoNewMember.refl _

/-! ### Stations taken out of the table and the roster (R51, R57) -/

/-- One claim fewer for each of a list of claims (R7). -/
theorem countDown_foldl (l : List (Word16 × Claim)) : ∀ (v : Vector Nat 16) (k : Nat), (∀ g ∈ l, g.2.station < 16) →
    (l.foldl (fun v g => countDown v g.2.station) v)[k]?.getD 0 = v[k]?.getD 0 - l.countP (fun g => g.2.station == k) := by
  induction l with
  | nil => intro v k h; simp
  | cons g l ih =>
    intro v k h
    rw [List.foldl_cons, ih _ _ (fun x hx => h x (List.mem_cons_of_mem _ hx)), countDown_get _ _ (h g (by simp)),
      List.countP_cons]
    by_cases e : k = g.2.station
    · subst e; simp; omega
    · simp [e, Ne.symm e]

/-- An entry that is not NONE is one of the 16. -/
theorem Tbu.entry_lt {t : Tbu} {k : Nat} (h : t.entry k ≠ .vacant) : k < 16 := by
  by_contra hh; exact h (Tbu.entry_beyond t (by omega))

/-- The one JOINING entry is the joiner, and its donor the donor (R48, R53). -/
theorem OneJoiner.joiner_eq {t : Tbu} {k start d} (ho : OneJoiner t) (h : t.entry k = .joining start d) :
    t.joiner = some k ∧ t.donor = some d := by
  have hk : k < 16 := Tbu.entry_lt (t := t) (by rw [h]; simp)
  have hj : t.joiner = some k := by
    unfold Tbu.joiner
    rw [List.find?_range_eq_some]
    refine ⟨by simp [h, RosterEntry.isJoining], by simpa using hk, ?_⟩
    intro j hj
    by_contra hh
    have := ho j k (by simpa using hh) (by simp [h, RosterEntry.isJoining])
    omega
  exact ⟨hj, by simp [Tbu.donor, hj, h]⟩

/-- Without a JOINING entry there is no joiner. -/
theorem Tbu.joiner_none {t : Tbu} (h : ∀ k < 16, (t.entry k).isJoining = false) : t.joiner = none := by
  unfold Tbu.joiner
  rw [List.find?_eq_none]
  intro k hk; simp [h k (by simpa using hk)]

/-- The claims of a station in walk order (R13). -/
theorem Tbu.picked_station (k : Nat) (t : Tbu) :
    t.picked (pickStation k) = t.records.flatMap (fun x => (x.claimsOf k).map (fun c => (x.resource, c))) := by
  unfold Tbu.picked
  congr 1
  funext x
  simp [ResRecord.picked, ResRecord.claimsOf, ResRecord.claims]; rfl

/-- They are as many as the table holds of the station. -/
theorem Tbu.picked_station_length (k : Nat) (t : Tbu) :
    (t.picked (pickStation k)).length = t.claims.countP (fun c => c.station == k) := by
  rw [Tbu.picked_station, Tbu.claims, List.countP_flatMap, List.length_flatMap]
  congr 1
  apply List.map_congr_left
  intro x _
  simp [ResRecord.claimsOf, List.countP_eq_length_filter]

/-- A purge and the entry's NONE take one station out (R51). -/
theorem takesOut_purge (a : App) (k : Nat) (r : Word32) (hk : k < 16) :
    TakesOut a [k] r ((a.purge k r).setEntry k .vacant) := by
  have hc : ∀ g ∈ a.tbu.picked (pickStation k), g.2.station = k := by
    rw [Tbu.picked_station]
    intro g hg
    simp only [List.mem_flatMap, List.mem_map] at hg
    obtain ⟨x, _, c, hc, rfl⟩ := hg
    simpa [ResRecord.claimsOf] using (List.mem_filter.mp hc).2
  refine ⟨?_, ?_, ?_, ?_, ?_, ?_, rfl, rfl⟩
  · show a.tbu.records.map (ResRecord.without (pickStation k)) = _
    apply List.map_congr_left
    intro x _
    simp only [ResRecord.without, pickStation]
    congr 1 <;> (apply List.filter_congr; intro c _; simp; rfl)
  · show a.out ++ (a.tbu.picked (pickStation k)).map (claimNote .lost r) = _
    congr 1
    rw [Tbu.picked_station, List.map_flatMap]
    simp only [lostOutcomes, List.flatMap_cons, List.flatMap_nil, List.append_nil, List.map_map]
    apply List.flatMap_congr
    intro x _
    apply List.map_congr_left
    intro c hc
    have : c.station = k := by simpa [ResRecord.claimsOf] using (List.mem_filter.mp hc).2
    simp [claimNote, this]
  · intro x
    show x ∈ a.touched ++ (a.tbu.picked (pickStation k)).map (·.1) ↔ _
    rw [Tbu.picked_station]
    simp only [List.mem_append, List.mem_map, List.mem_flatMap]
    constructor
    · rintro (h | ⟨g, ⟨y, hy, c, hc, rfl⟩, rfl⟩)
      · exact .inl h
      · obtain ⟨h1, h2⟩ := List.mem_filter.mp hc
        exact .inr ⟨y, hy, rfl, c, h1, by simpa using h2⟩
    · rintro (h | ⟨y, hy, rfl, c, h1, h2⟩)
      · exact .inl h
      · exact .inr ⟨(y.resource, c), ⟨y, hy, c, by simpa [ResRecord.claimsOf, h1] using h2, rfl⟩, rfl⟩
  · show a.tbu.free + (a.tbu.picked (pickStation k)).length = _
    rw [Tbu.picked_station_length]
    congr 1
    apply List.countP_congr
    intro c _; simp
  · intro j
    show ((a.tbu.picked (pickStation k)).foldl (fun v g => countDown v g.2.station) a.tbu.counts)[j]?.getD 0 = _
    rw [countDown_foldl _ _ _ (fun g hg => by rw [hc g hg]; exact hk)]
    by_cases h : j = k
    · subst h
      simp only [List.mem_singleton, if_true]
      have : (a.tbu.picked (pickStation j)).countP (fun g => g.2.station == j) = (a.tbu.picked (pickStation j)).length := by
        rw [List.countP_eq_length]; intro g hg; simp [hc g hg]
      rw [this, Tbu.picked_station_length]; rfl
    · have : (a.tbu.picked (pickStation k)).countP (fun g => g.2.station == j) = 0 := by
        rw [List.countP_eq_zero]; intro g hg; rw [hc g hg]; simpa using fun e => h e.symm
      rw [this]; simp [h]; rfl
  · intro j
    show ((a.purge k r).tbu.setEntry k .vacant).entry j = _
    rw [Tbu.entry_setEntry _ _ _ hk]
    simp; rfl

/-- Taking out one station and then another takes out both. -/
theorem TakesOut.trans {a b c : App} {h k : Nat} {r : Word32} (hne : h ≠ k) (h1 : TakesOut a [h] r b)
    (h2 : TakesOut b [k] r c) : TakesOut a [h, k] r c := by
  obtain ⟨a1, a2, a3, a4, a5, a6, a7, a8⟩ := h1
  obtain ⟨b1, b2, b3, b4, b5, b6, b7, b8⟩ := h2
  have hcl : ∀ x ∈ a.tbu.records, ({ x with
      holders := x.holders.filter (fun c => !([h].contains c.station))
      waiters := x.waiters.filter (fun c => !([h].contains c.station)) } : ResRecord).claimsOf k = x.claimsOf k := by
    intro x _
    simp only [ResRecord.claimsOf, ResRecord.claims, List.filter_append, List.filter_filter]
    have : ∀ l : List Claim, l.filter (fun c => c.station == k && !([h].contains c.station))
        = l.filter (fun c => c.station == k) := by
      intro l; apply List.filter_congr; intro c _
      by_cases e : c.station = k
      · simp [e, Ne.symm hne]
      · simp [e]
    rw [this, this]
  have hcnt : ∀ j, j ≠ h → b.tbu.claims.countP (fun c => c.station == j)
      = a.tbu.claims.countP (fun c => c.station == j) := by
    intro j hj
    rw [Tbu.claims, Tbu.claims, a1, List.flatMap_map, List.countP_flatMap, List.countP_flatMap]
    congr 1
    apply List.map_congr_left
    intro x _
    simp only [Function.comp, ResRecord.claims, List.countP_append, List.countP_filter]
    congr 1 <;> (apply List.countP_congr; intro c _; simp; intro e; rw [e]; exact hj)
  refine ⟨?_, ?_, ?_, ?_, ?_, ?_, b7.trans a7, b8.trans a8⟩
  · rw [b1, a1, List.map_map]
    apply List.map_congr_left
    intro x _
    simp only [Function.comp, List.filter_filter]
    congr 1 <;> (apply List.filter_congr; intro c _; simp [Bool.and_comm])
  · rw [b2, a2, List.append_assoc]
    congr 1
    simp only [List.flatMap_cons, List.flatMap_nil, List.append_nil]
    congr 1
    rw [a1]
    unfold lostOutcomes
    rw [List.flatMap_map]
    apply List.flatMap_congr
    intro x hx
    rw [hcl x hx]
  · intro x
    rw [b3, a3, a1]
    constructor
    · rintro ((h | ⟨y, hy, rfl, c, hc, hm⟩) | ⟨y, hy, rfl, c, hc, hm⟩)
      · exact .inl h
      · exact .inr ⟨y, hy, rfl, c, hc, by simp at hm; simp [hm]⟩
      · obtain ⟨z, hz, rfl⟩ := List.mem_map.mp hy
        refine .inr ⟨z, hz, rfl, c, ?_, by simp at hm; simp [hm]⟩
        simp only [ResRecord.claims, List.mem_append, List.mem_filter] at hc ⊢
        tauto
    · rintro (h | ⟨y, hy, rfl, c, hc, hm⟩)
      · exact .inl (.inl h)
      · simp at hm
        rcases hm with hm | hm
        · exact .inl (.inr ⟨y, hy, rfl, c, hc, by simp [hm]⟩)
        · refine .inr ⟨_, List.mem_map.mpr ⟨y, hy, rfl⟩, rfl, c, ?_, by simp [hm]⟩
          simp only [ResRecord.claims, List.mem_append, List.mem_filter] at hc ⊢
          simp [hm, Ne.symm hne]
          exact hc
  · rw [b4, a4, Nat.add_assoc]
    congr 1
    have e1 : b.tbu.claims.countP (fun c => [k].contains c.station) = a.tbu.claims.countP (fun c => c.station == k) := by
      rw [← hcnt k (Ne.symm hne)]; apply List.countP_congr; intro c _; simp
    rw [e1]
    generalize a.tbu.claims = l
    induction l with
    | nil => rfl
    | cons c l ih =>
      simp only [List.countP_cons]
      by_cases c1 : c.station = h
      · have : ¬ h = k := hne
        simp [c1, this] at ih ⊢; omega
      · by_cases c2 : c.station = k
        · simp [c2, Ne.symm hne] at ih ⊢; omega
        · simp [c1, c2] at ih ⊢; omega
  · intro j
    rw [b5, a5]
    by_cases j1 : j = h
    · subst j1; simp [hne]
    · by_cases j2 : j = k
      · subst j2; simp [j1, hcnt j j1]
      · simp [j1, j2]
  · intro j
    rw [b6, a6]
    by_cases j1 : j = h <;> by_cases j2 : j = k <;> simp [j1, j2]

/-- A MEMBER that is purged and leaves the roster takes the join it served with it (R57). -/
theorem takesOut_served (a : App) (h : Nat) (r : Word32) (ho : OneJoiner a.tbu) (hm : (a.tbu.entry h).isMember = true) :
    (∀ k start, a.tbu.entry k = .joining start h →
      TakesOut a [h, k] r (((a.purge h r).cancelServed h r).setEntry h .vacant))
    ∧ ((∀ k start, a.tbu.entry k ≠ .joining start h) →
      TakesOut a [h] r (((a.purge h r).cancelServed h r).setEntry h .vacant)) := by
  have hh : h < 16 := Tbu.entry_lt (by intro e; rw [e] at hm; cases hm)
  refine ⟨?_, ?_⟩
  · intro k start hk
    have hne : h ≠ k := by rintro rfl; rw [hk] at hm; cases hm
    have hkk : k < 16 := Tbu.entry_lt (t := a.tbu) (by rw [hk]; simp)
    have e1 : (a.purge h r).tbu.joiner = some k ∧ (a.purge h r).tbu.donor = some h := by
      exact OneJoiner.joiner_eq (t := (a.purge h r).tbu) ho hk
    have : ((a.purge h r).cancelServed h r).setEntry h .vacant
        = ((((a.purge h r).setEntry h .vacant).purge k r).setEntry k .vacant) := by
      unfold App.cancelServed
      rw [e1.1]
      simp only [e1.2, if_true, App.cancelJoin]
      show (App.setEntry (App.setEntry _ _ _) _ _) = _
      simp only [App.setEntry, Tbu.setEntry]
      have key : ∀ v : Vector RosterEntry 16, (v.setIfInBounds k .vacant).setIfInBounds h .vacant
          = (v.setIfInBounds h .vacant).setIfInBounds k .vacant := by
        intro v; apply Vector.ext; intro i hi
        simp only [Vector.getElem_setIfInBounds]
        by_cases i1 : h = i <;> by_cases i2 : k = i <;> simp [i1, i2]
      have e3 := key (a.purge h r).tbu.roster
      simp only [App.purge, App.remove, Tbu.without] at e3 ⊢
      rw [e3]
      rfl
    rw [this]
    exact TakesOut.trans hne (takesOut_purge a h r hh) (takesOut_purge _ k r hkk)
  · intro hn
    have : (a.purge h r).cancelServed h r = a.purge h r := by
      unfold App.cancelServed
      cases hj : (a.purge h r).tbu.joiner with
      | none => rfl
      | some k =>
        simp only
        rw [if_neg]
        intro hd
        simp only [Tbu.donor, hj, Option.bind_some] at hd
        have e : (a.purge h r).tbu.entry k = a.tbu.entry k := rfl
        rw [e] at hd
        cases he : a.tbu.entry k with
        | joining st d => rw [he] at hd; simp at hd; subst hd; exact hn k st he
        | member _ => rw [he] at hd; cases hd
        | vacant => rw [he] at hd; cases hd
    rw [this]
    exact takesOut_purge a h r hh

end Sys2Proof.Machine
end

