-- ==== Sys2Proof/Tests/Slice0.lean ====
section
/-! SUPPORT. Tests of single commands on small states, with values from the spec's rules, layouts and worked examples, the
smoke tests of well-formedness, and a witness for the hypotheses of every statement that has some. -/

namespace Sys2Proof.Tests

open Sys2Proof.Machine

-- One test after the other: the kernel's evaluations need no threads of their own.
set_option Elab.async false

/-! ### States and frames that the tests share -/

/-- A property of the state a command leads to. -/
def Leads (c : Instr) (s : State) (p : State → Bool) : Bool :=
  match exec c s with
  | .next t => p t
  | .fault _ => false
  | .refused _ => false

/-- Station 1 of a group of three with M = 2, aligned in rotation 5, in the turn of station 0, the line quiet. -/
def base (st : StationState) : State :=
  { State.reset with
    lif := { Lif.cleared with receiver := .quiet, profile := some (profileOf ⟨3, 0, 2⟩), rate := some 0 }
    trk := { Trk.cleared with rotation := 5, holder := some 0, aligned := true, skipTimer := some 20 }
    stc := { station := st, leave := .idle, config := ⟨3, 0, 2⟩, strap := 1 } }

/-- The roster of a group in which stations 0 and 1 are MEMBER, last seen in rotation 5. -/
def pairTable : Tbu :=
  { Tbu.cleared with
    roster := (Vector.replicate 16 .vacant).setIfInBounds 0 (.member 5) |>.setIfInBounds 1 (.member 5)
    lastApplied := some 5 }

/-- Station 1 as a MEMBER. -/
def member : State := { base .member with tbu := pairTable }

/-- Station 1 in LEAVING, draining. -/
def leaving : State :=
  { base .leaving with
    tbu := pairTable, stc := { station := .leaving, leave := .draining, config := ⟨3, 0, 2⟩, strap := 1 } }

/-- The station with its own turn waiting to start. -/
def inTurn (s : State) : State := s.setTrk { s.trk with holder := some 1, phase := .waiting }

/-- The station at the end of an item with these bits, its own or another's. -/
def atItemEnd (s : State) (bits : List Bool) (own : Bool) : State :=
  s.setLif { s.lif with
    receiver := .trailing, item := { LineItem.blank with bits := bits, own := own, endAt := some 9 } }

/-- The station at the end of a frame of another station. -/
def hearing (s : State) (g : StreamFrame) : State := atItemEnd s (bitsOfBytes (encodeFrame s.profile (.stream g))) false

/-- The station at the end of a frame of its own, with the bits of its own transmission or a fault. -/
def hearingOwn (s : State) (f : Frame) (bits : List Bool) : State :=
  let t := atItemEnd s bits true
  t.setLif { t.lif with sent := some f }

/-- A frame of a station in rotation 5. -/
def frame (k : StreamKind) (sender : Nat) (echo : Option FrameRef) (check : Option Word32) (ops : List Request) :
    StreamFrame :=
  StreamFrame.sealed (profileOf ⟨3, 0, 2⟩)
    { kind := k, sender := sender, rotation := 5, moreFollows := false, echo := echo, streamCheck := check, wanted := 0,
      ops := ops, check := 0 }

/-- A JOIN of station 2: a frame without a stream check, with the echo given. -/
def joinOf2 (echo : Option FrameRef) : StreamFrame := frame .join 2 echo none []

/-- The pending MEMBER frame of station 0. -/
def pending0 : StreamFrame := frame .member 0 (some ⟨⟨4, 1⟩, 7⟩) (some 3) []

/-- An ACQUIRE of resource 500. -/
def acquire500 : Request :=
  { kind := .acquire, mode := some .exclusive, tag := 70, resource := 500, lease := 4, patience := 0 }

/-- A MEMBER frame of station 1 itself, carrying the ACQUIRE. -/
def own1 : StreamFrame := frame .member 1 (some ⟨⟨4, 0⟩, 7⟩) (some 3) [acquire500]

/-- The FOUND of station 1. -/
def found1 : StreamFrame :=
  StreamFrame.sealed (profileOf ⟨3, 0, 2⟩)
    { kind := .found, sender := 1, rotation := 0, moreFollows := false, echo := none, streamCheck := none, wanted := 0,
      ops := [], check := 0 }

/-- The station with a frame pending as P. -/
def withPending (s : State) (p : StreamFrame) : State := s.setCmu { s.cmu with waiting := some p }

/-- A notification record. -/
def note : Note := stateNote .listening .enabled none 0

/-- The station with `n` records in its queue. -/
def noted (s : State) (n : Nat) : State := s.setNtq { s.ntq with queue := List.replicate n note }

/-- A HOLDING claim with lease 0, for a table. -/
def holds (k : Nat) (m : Mode) : Claim := ⟨k, m, 0, 0, none⟩

/-! ### Well-formedness: an ill-formed command for each check -/

theorem test_badCmd_refuses_a_command_code : (Instr.badCmd 5).wellFormed = false := by decide
theorem test_badCmd_takes_a_code_of_no_command : (Instr.badCmd 10).wellFormed = true := by decide
theorem test_registerWrite_refuses_cmd : (Instr.registerWrite 0x06 1).wellFormed = false := by decide
theorem test_registerWrite_takes_stage0 : (Instr.registerWrite 0x08 1).wellFormed = true := by decide

/-! ### Commands of the host (R16, R143 to R185) -/

/-- R143, spec/11: ENABLE takes the reset station to LISTENING with one record, STATE LISTENING, ENABLED. -/
theorem test_enable :
    Leads .enable State.reset (fun t => t.stc.station = .listening && t.readWord 0x11 = 1 && t.readWord 0x07 = 1) = true := by
  decide +kernel

/-- R143: station 2 does not fit into a group of 2; the result is BADCONFIG. -/
theorem test_enable_badconfig :
    Leads .enable { State.reset with stc := { State.reset.stc with strap := 2 } }
      (fun t => t.stc.station = .halted && t.readWord 0x07 = 3) = true := by
  decide +kernel

/-- R148: a MEMBER drains. -/
theorem test_leave : Leads .leave member (fun t => t.stc.station = .leaving && t.stc.leave = .draining) = true := by
  decide +kernel

/-- R154: DISABLE halts and clears the aligned flag. -/
theorem test_disable : Leads .disable member (fun t => t.readWord 0x03 = 0 && t.readWord 0x07 = 1) = true := by
  decide +kernel

/-- R155, R183: CMD reads 4 after PORT RESET, and no record is left. -/
theorem test_portReset : Leads .portReset (noted member 3) (fun t => t.readWord 0x06 = 4 && t.readWord 0x11 = 0) = true := by
  decide +kernel

/-- R157, R184: STAGE0 0x4611 is ACQUIRE, SHARED, tag 0x46. -/
theorem test_post :
    Leads .post { member with lpt := { Lpt.cleared with stage0 := 0x4611, stage1 := 500, stage2 := 4, stage3 := 4095 } }
      (fun t => t.rqu.outgoing = [⟨.acquire, some .shared, 0x46, 500, 4, 4095⟩] && t.rqu.live = [0x46]) = true := by
  decide +kernel

/-- R157, R158: a mode code of 3 is BADARG. -/
theorem test_post_badarg :
    Leads .post { member with lpt := { Lpt.cleared with stage0 := 0x4631, stage1 := 500 } }
      (fun t => t.rqu.outgoing = [] && t.readWord 0x07 = 4) = true := by
  decide +kernel

/-- R167: the queued request is gone and CANCELLED is written. -/
theorem test_cancel :
    Leads .cancel { member with
        rqu := { Rqu.cleared with outgoing := [acquire500], live := [70] }, lpt := { Lpt.cleared with stage0 := 0x4600 } }
      (fun t => t.rqu = Rqu.cleared && t.ntq.queue.map Note.kind = [.cancelled]) = true := by
  decide +kernel

/-- R177, HEAD4 and HEAD0 of a STATE LISTENING, ENABLED record: detail 0x11, kind 14. -/
theorem test_pop :
    Leads .pop (noted member 1) (fun t => t.readWord 0x10 = 0x0011 && t.readWord 0x0C = 14 && t.readWord 0x11 = 0) = true := by
  decide +kernel

/-- R177: an empty queue answers EMPTY. -/
theorem test_pop_empty : Leads .pop member (fun t => t.readWord 0x07 = 9) = true := by decide +kernel

/-- R178. -/
theorem test_clearLost :
    Leads .clearLost { member with ntq := { Ntq.cleared with lost := 3, overflow := true } }
      (fun t => t.readWord 0x12 = 0 && !t.ntq.overflow) = true := by
  decide +kernel

/-- R16, R185: one EXCLUSIVE holder, the station itself, without an expiry: 31, no waiter, code 16, EXCLUSIVE, none. -/
theorem test_inquire :
    Leads .inquire { member with
        tbu := { pairTable with records := [⟨500, [holds 1 .exclusive], []⟩] }, lpt := { Lpt.cleared with inqKey := 500 } }
      (fun t => t.readWord 0x14 = 0b1111100001000011) = true := by
  decide +kernel

/-- R183: RESULT is BADCMD and CMD stays. -/
theorem test_badCmd :
    Leads (.badCmd 10) { member with lpt := { Lpt.cleared with cmd := 7 } }
      (fun t => t.readWord 0x06 = 7 && t.readWord 0x07 = 10) = true := by
  decide +kernel

/-- R181: ROTLO reads the latch of the same moment. -/
theorem test_rothiRead :
    Leads .rothiRead { member with trk := { Trk.cleared with rotation := 0x1234FFFF } }
      (fun t => t.lpt.readData = some 0x1234 && t.readWord 0x05 = 0xFFFF) = true := by
  decide +kernel

/-- R182: N in bits 4-0, the rate code in bits 9-8, M in bits 14-12. -/
theorem test_configWrite :
    Leads (.configWrite 0x3210) State.reset (fun t => t.stc.config = ⟨16, 2, 3⟩ && t.readWord 0x00 = 0x3210) = true := by
  decide +kernel

/-- R182: outside HALTED the write is ignored and flagged in STATUS bit 5; a MEMBER with the flag set reads 0x0035. -/
theorem test_configWrite_ignored :
    Leads (.configWrite 0x3210) member (fun t => t.readWord 0x00 = 0x2003 && t.readWord 0x03 = 0x0035) = true := by
  decide +kernel

/-- R179, R182: with the enable on, a waiting record asserts INT. -/
theorem test_irqenWrite : Leads (.irqenWrite 1) (noted member 1) (fun t => t.intAsserted && t.readWord 0x01 = 1) = true := by
  decide +kernel

/-- R180: a write to a read-only word takes nothing. -/
theorem test_registerWrite_readonly : Leads (.registerWrite 0x0C 5) member (fun t => t = member) = true := by decide +kernel

/-- R180: RD and WR both low drive nothing and write nothing; a read of STATUS drives it, and with RESET low nothing. -/
theorem test_busCycle :
    let both : BusCycle := ⟨true, true, true, 0x08, 5⟩
    let status : BusCycle := ⟨true, true, false, 0x03, 0⟩
    member.drives both = none ∧ both.command = none ∧ member.drives status = some 0x0015
      ∧ (member.setPins { resetLow := true, lineActive := false }).drives status = none
      ∧ (⟨true, false, true, 0x06, 9⟩ : BusCycle).command = some .inquire := by
  decide +kernel

/-- R155, R141: the strap number is sampled, and the configuration copy takes its reset values. -/
theorem test_pinReset :
    Leads (.pinReset 9) member (fun t => t.stc = { station := .halted, leave := .idle, config := ⟨2, 0, 2⟩, strap := 9 }) = true := by
  decide +kernel

/-- R155: while RESET is low no command is taken; after the release it is. -/
theorem test_resetRelease :
    (Leads .enable { State.reset with pins := { resetLow := true, lineActive := false } } (fun t => t.readWord 0x07 = 0)
      && Leads .resetRelease { State.reset with pins := { resetLow := true, lineActive := false } } (fun t => t = State.reset))
      = true := by
  decide +kernel

/-! ### The line and the station's own timing -/

/-- R88: activity stops the skip timer. -/
theorem test_activityBegins :
    Leads .activityBegins member (fun t => t.lif.receiver = .active && t.trk.skipTimer = none) = true := by decide +kernel

/-- R104: the receiver trails with the bits it collected. -/
theorem test_activityStops :
    Leads (.activityStops [true]) { member with lif := { member.lif with receiver := .active } }
      (fun t => t.lif.receiver = .trailing && t.lif.item.bits = [true]) = true := by
  decide +kernel

/-- R69, R91, R95: a fault is a hole, and the turn passes from station 0 to this one. -/
theorem test_itemDelivery_fault :
    Leads .itemDelivery (atItemEnd member [] false)
      (fun t => t.cmu.holes = 1 && t.trk.holder = some 1 && t.trk.phase = .waiting) = true := by
  decide +kernel

/-- R70, R75, R89: the echo of station 2 commits the frame of station 0, and the turn wraps to rotation 6. -/
theorem test_itemDelivery_commit :
    Leads .itemDelivery (hearing (withPending member pending0) (joinOf2 (some pending0.ref)))
      (fun t => t.cmu.last = some pending0.ref && t.cmu.waiting = some (joinOf2 (some pending0.ref))
        && t.trk.rotation = 6 && t.trk.holder = some 0) = true := by
  decide +kernel

/-- R133: station 1, the first MEMBER after station 2, takes the image of station 2's JOIN: one item, no record. -/
theorem test_itemDelivery_capture :
    Leads .itemDelivery (hearing
        (withPending (member.setTbu (pairTable.setEntry 0 .vacant)) (joinOf2 none)) (frame .join 0 (some (joinOf2 none).ref) none []))
      (fun t => t.xfu.image.map (fun i => (i.rotation, i.joiner, i.items.length)) = some (5, 2, 1)) = true := by
  decide +kernel

/-- R92: the turn passes and the skip timer starts over. -/
theorem test_skipPoint :
    Leads .skipPoint member (fun t => t.trk.holder = some 1 && t.trk.skipTimer = some 0 && t.trk.lone = 1) = true := by
  decide +kernel

/-- R99, R145: the station founds and sends its FOUND at once. -/
theorem test_listenWindowExpiry :
    Leads .listenWindowExpiry
      { base .listening with trk := { Trk.cleared with window := some 295024 } }
      (fun t => t.stc.station = .founding && t.txeAsserted && t.lif.sent = some (.stream found1)) = true := by
  decide +kernel

/-- R161, R109: the MEMBER frame takes the queued request into flight. -/
theorem test_frameStart :
    Leads .frameStart (inTurn { member with rqu := { Rqu.cleared with outgoing := [acquire500], live := [70] } })
      (fun t => t.rqu.inflight = [acquire500] && t.rqu.outgoing = [] && t.rqu.carrier = some ⟨5, 1⟩ && t.txeAsserted) = true := by
  decide +kernel

/-- R109: TXE is released at the end of the frame, a JOIN of 29 bytes. -/
theorem test_transmissionEnd :
    Leads .transmissionEnd { member with lif := { member.lif with transmitter := .sending, sent := some (.stream (joinOf2 none)) } }
      (fun t => !t.txeAsserted && t.lif.item.bits.length = 8 * 29) = true := by
  decide +kernel

/-- R110: the transmitter stops and the item is a fault. -/
theorem test_loopbackMismatch :
    Leads .loopbackMismatch { member with lif := { member.lif with transmitter := .sending } }
      (fun t => !t.txeAsserted && t.heard = .fault) = true := by
  decide +kernel

/-- R98: MEMBER keeps the aligned flag at a lone-turn count of 2N, JOINING loses it. -/
theorem test_alignmentLoss :
    (Leads .alignmentLoss (member.setTrk { member.trk with lone := 6 }) (fun t => t.trk.aligned)
      && Leads .alignmentLoss ((base .joining).setTrk { member.trk with lone := 6 }) (fun t => !t.trk.aligned)) = true := by
  decide +kernel

/-- R122, R132: the attempt fails with reason STALL, detail 0x0291 in HEAD4. -/
theorem test_joinStall :
    Leads .joinStall { base .joining with xfu := { Xfu.cleared with phase := .awaiting, stall := 3 } }
      (fun t => t.stc.station = .listening && t.ntq.queue.map (fun n => detailWord n.rotation n.detail) = [0x0291]) = true := by
  decide +kernel

/-- R128: the last entry, a hole, is counted, and the station confirms. -/
theorem test_replayEntry :
    Leads .replayEntry { base .loading with xfu := { Xfu.cleared with phase := .replaying, catchup := [.hole none] } }
      (fun t => t.cmu.holes = 1 && t.xfu.phase = .confirming && t.xfu.catchup = []) = true := by
  decide +kernel

/-! ### Worked examples of the spec -/

/-- spec/01, "one grant pass and a withdrawal": record 320 after its release by station 2 at rotation 1000. -/
theorem test_example_grant_pass :
    (⟨320, [], [⟨5, .shared, 1, 20, none⟩, ⟨1, .shared, 2, 0, none⟩, ⟨7, .exclusive, 3, 10, some 1004⟩,
        ⟨3, .shared, 4, 0, none⟩]⟩ : ResRecord).passed 1000
      = ⟨320, [⟨5, .shared, 1, 20, some 1020⟩, ⟨1, .shared, 2, 0, none⟩],
          [⟨7, .exclusive, 3, 10, some 1004⟩, ⟨3, .shared, 4, 0, none⟩]⟩ := by
  decide +kernel

/-- spec/03, "a renewal racing a lease boundary": the boundary of 901 removes station 1's claim of expiry 900, and
station 2 is granted. -/
theorem test_example_lease_boundary :
    let t : Tbu := { Tbu.cleared with
      records := [⟨500, [⟨1, .exclusive, 70, 4, some 900⟩], [⟨2, .exclusive, 90, 0, none⟩]⟩], inUse := 1, free := 126
      lastApplied := some 900 }
    let b := t.begin.boundary 3 2 901
    b.tbu.records = [⟨500, [⟨2, .exclusive, 90, 0, none⟩], []⟩] ∧ b.tbu.free = 127
      ∧ b.out.map (fun o => (o.station, o.note.kind)) = [(1, .expired), (2, .granted)] := by
  decide +kernel

/-- spec/06, the example of the wrong absence limit: station 3 of four listens for 381,072 bit times. -/
theorem test_example_listen_window :
    ({ State.reset with stc := { State.reset.stc with config := ⟨4, 1, 3⟩, strap := 3 } } : State).windowLength = 381072 := by
  decide +kernel

/-! ### Witnesses: for each statement with hypotheses, states and operands that meet them, clause by clause -/

theorem witness_StepRunsTheFrontCommand : (({ member with pending := [.pop, .leave] } : State)).pending = .pop :: [.leave] := rfl

/-- The receiver OFF; the line QUIET with both timers one bit time before their ends. -/
theorem witness_EmptyQueueLetsOneBitTimePass :
    (State.reset.pending = [] ∧ State.reset.lif.receiver ≠ .quiet)
      ∧ (let s := { base .listening with trk := { Trk.cleared with skipTimer := some 63, window := some 295023 } }
         s.pending = [] ∧ s.lif.receiver = .quiet) := by
  decide +kernel

/-- A record and an empty queue; no head, and a head with each kind of detail; the counts at their limits. -/
theorem witness_PopTakesTheHeadRecord :
    ((noted member 1).pins.resetLow = false ∧ (noted member 1).ntq.queue = note :: [])
      ∧ (member.pins.resetLow = false ∧ member.ntq.queue = [] ∧ member.ntq.head = none)
      ∧ (∀ d ∈ [Detail.absent, .expiry none, .expiry (some 4095), .position 15, .reason .quota,
            .state .member .founded none, .cause .missed, .foreign .duplicate],
          let n := stationNote .state 0 d
          (member.setNtq { member.ntq with head := some n }).ntq.head = some n)
      ∧ ((4095 : Word32) - 0).toNat < 65536
      ∧ ((noted member 64).ntq.queue.length ≤ 64
          ∧ (member.setNtq { member.ntq with lost := 65535 }).ntq.lost ≤ 65535) := by
  decide +kernel

theorem witness_ClearLostClearsCountAndFlag :
    (noted member 64).pins.resetLow = false ∧ 64 ≤ (noted member 64).ntq.queue.length := by
  decide +kernel

/-- 63 records and 64, a full queue with a head, a command that writes records, and the bound of the queue. -/
theorem witness_RecordsEnterByOfferAndLeaveByPopOrReset :
    (noted member 63).ntq.queue.length < 64
      ∧ ((noted member 64).pins.resetLow = false ∧ (noted member 64).ntq.queue = note :: List.replicate 63 note
          ∧ (noted member 64).ntq.queue.length = 64)
      ∧ (Instr.leave.wellFormed = true ∧ Instr.leave ≠ .pop ∧ Instr.leave ≠ .clearLost ∧ Instr.leave ≠ .portReset
          ∧ (∀ sn, Instr.leave ≠ .pinReset sn) ∧ exec .leave member = .next (member.unlessHeld member.hostLeave)) :=
  ⟨by decide +kernel, by decide +kernel, by decide, by decide, by decide, by decide, nofun, rfl⟩

theorem witness_InterruptLineFollowsItsCondition : (noted member 1).pins.resetLow = false := by decide +kernel

theorem witness_RothiReadLatchesTheLowerHalf :
    member.pins.resetLow = false ∧ exec .rothiRead member = .next (member.unlessHeld member.readRotHi)
      ∧ ((⟨true, true, false, 0x04, 0⟩ : BusCycle).isRead = true ∧ (⟨true, true, false, 0x05, 0⟩ : BusCycle).isRead = true)
      ∧ (Instr.leave.wellFormed = true ∧ Instr.leave ≠ .rothiRead ∧ Instr.leave ≠ .portReset
          ∧ (∀ sn, Instr.leave ≠ .pinReset sn) ∧ exec .leave member = .next (member.unlessHeld member.hostLeave)) :=
  ⟨rfl, rfl, ⟨rfl, rfl⟩, rfl, by decide, by decide, nofun, rfl⟩

/-- HALTED, and a state that is not; 63 waiting records are too many for the last clause, 61 with two requests are not. -/
theorem witness_ConfigurationWordsAndTheirResets :
    (State.reset.pins.resetLow = false ∧ State.reset.stc.station = .halted)
      ∧ (let s := (noted member 61).setRqu { Rqu.cleared with outgoing := [acquire500, acquire500] }
         s.pins.resetLow = false ∧ s.stc.station ≠ .halted
           ∧ s.ntq.queue.length + s.rqu.inflight.length + s.rqu.outgoing.length < 64) := by
  decide +kernel

/-- A write; reads of a word, of ROTHI and of the first unused address; write cycles at CMD with 9, 10 and at STAGE0; both
strobes, neither, and no CS; and RESET low. -/
theorem witness_RegisterWriteStoresTheWord :
    (member.pins.resetLow = false ∧ (∀ a ∈ [0x08#5, 0x13#5, 0x02#5, 0x1F#5], a ≠ 0x00 ∧ a ≠ 0x01 ∧ a ≠ 0x06))
      ∧ (∀ a ∈ [0x03#5, 0x04#5, 0x17#5], (⟨true, true, false, a, 0⟩ : BusCycle).isRead = true)
      ∧ (∀ c ∈ [(⟨true, false, true, 0x06, 9⟩ : BusCycle), ⟨true, false, true, 0x06, 10⟩, ⟨true, false, true, 0x08, 0⟩],
          c.cs = true ∧ c.wr = true ∧ c.rd = false ∧ c.command.isSome)
      ∧ (∀ c ∈ [(⟨true, true, true, 0x06, 9⟩ : BusCycle), ⟨true, false, false, 0x06, 9⟩, ⟨false, true, false, 0x06, 9⟩],
          c.cs = false ∨ c.rd = c.wr)
      ∧ (member.setPins { resetLow := true, lineActive := false }).pins.resetLow = true := by
  decide +kernel

theorem witness_UnknownCodeOnlySetsTheResult :
    member.pins.resetLow = false ∧ ((0 : Word16) = 0 ∨ 9 < (0 : Word16).toNat)
      ∧ ((10 : Word16) = 0 ∨ 9 < (10 : Word16).toNat) := by
  decide +kernel

/-- A table for the inquiry clauses: held by station 1, by station 0 with station 1 second in the wait list, by others. -/
def inquired (key : Word16) : State :=
  { member with
    tbu := { pairTable with records :=
      [⟨3, [holds 1 .shared], []⟩, ⟨4, [holds 0 .exclusive], [holds 2 .shared, holds 1 .exclusive]⟩,
       ⟨5, [holds 0 .shared], []⟩] }
    lpt := { Lpt.cleared with inqKey := key } }

theorem witness_InquireAnswersFromTheTable :
    (State.reset.pins.resetLow = false ∧ State.reset.stc.station ≠ .member ∧ State.reset.stc.station ≠ .leaving)
      ∧ ((inquired 0).stc.station = .member ∧ (inquired 0).lpt.inqKey = 0)
      ∧ ((inquired 9).lpt.inqKey ≠ 0 ∧ ∀ r ∈ (inquired 9).tbu.records, r.resource ≠ (inquired 9).lpt.inqKey)
      ∧ ((inquired 3).tbu.find 3 = some ⟨3, [holds 1 .shared], []⟩
          ∧ (⟨3, [holds 1 .shared], []⟩ : ResRecord).holding (inquired 3).number = some (holds 1 .shared))
      ∧ (let r : ResRecord := ⟨4, [holds 0 .exclusive], [holds 2 .shared, holds 1 .exclusive]⟩
         (inquired 4).tbu.find 4 = some r ∧ r.holding (inquired 4).number = none
           ∧ r.waiters[1]? = some (holds 1 .exclusive) ∧ r.waiters[0]? = some (holds 2 .shared))
      ∧ ((inquired 5).tbu.find 5 = some ⟨5, [holds 0 .shared], []⟩
          ∧ ∀ c ∈ [holds 0 .shared], c.station ≠ (inquired 5).number) := by
  decide +kernel

/-- The station with staging words, and with the tags `0` to `n - 1` live. -/
def posting (st : StationState) (w0 w1 w2 w3 : Word16) (n : Nat) : State :=
  { base st with
    lpt := { Lpt.cleared with stage0 := w0, stage1 := w1, stage2 := w2, stage3 := w3 }
    rqu := { Rqu.cleared with live := (List.range n).map (BitVec.ofNat 8) } }

/-- Boundary values: a lease and a patience of 4095 pass and 4096 fail, a live tag, and 31 and 32 live requests. -/
theorem witness_PostIsDecidedByTheFirstFailingCheck :
    ((base .leaving).pins.resetLow = false ∧ (base .leaving).stc.station ≠ .member)
      ∧ ((posting .member 0x4011 1 4096 0 0).stc.station = .member
          ∧ ¬ StagedWellFormed (posting .member 0x4011 1 4096 0 0).lpt)
      ∧ (StagedWellFormed (posting .member 0x0011 1 4095 4095 1).lpt
          ∧ (stagedRecord (posting .member 0x0011 1 4095 4095 1).lpt).tag ∈ (posting .member 0x0011 1 4095 4095 1).rqu.live)
      ∧ (StagedWellFormed (posting .member 0x4002 1 4096 4096 32).lpt
          ∧ (stagedRecord (posting .member 0x4002 1 4096 4096 32).lpt).tag ∉ (posting .member 0x4002 1 4096 4096 32).rqu.live
          ∧ 32 ≤ (posting .member 0x4002 1 4096 4096 32).rqu.live.length)
      ∧ (StagedWellFormed (posting .member 0x4005 1 0 0 31).lpt
          ∧ (stagedRecord (posting .member 0x4005 1 0 0 31).lpt).tag ∉ (posting .member 0x4005 1 0 0 31).rqu.live
          ∧ (posting .member 0x4005 1 0 0 31).rqu.live.length < 32) := by
  unfold StagedWellFormed
  exact ⟨by decide +kernel, by decide +kernel, by decide +kernel, by decide +kernel, by decide +kernel⟩

/-- A second request in the queue, a request in flight, and neither. -/
theorem witness_CancelRemovesOnlyAQueuedRequest :
    let p : Request := { acquire500 with tag := 69 }
    let s : State := { member with
      rqu := { Rqu.cleared with outgoing := [p, acquire500] }, lpt := { Lpt.cleared with stage0 := 0x4600 } }
    let t : State := { s with rqu := { Rqu.cleared with inflight := [acquire500] } }
    s.pins.resetLow = false
      ∧ (s.rqu.outgoing = [p] ++ acquire500 :: [] ∧ acquire500.tag = s.lpt.stage0.extractLsb' 8 8
          ∧ ∀ b ∈ [p], b.tag ≠ acquire500.tag)
      ∧ ((∀ q ∈ t.rqu.outgoing, q.tag ≠ t.lpt.stage0.extractLsb' 8 8)
          ∧ ∃ q ∈ t.rqu.inflight, q.tag = t.lpt.stage0.extractLsb' 8 8)
      ∧ ((∀ q ∈ member.rqu.outgoing, q.tag ≠ member.lpt.stage0.extractLsb' 8 8)
          ∧ ∀ q ∈ member.rqu.inflight, q.tag ≠ member.lpt.stage0.extractLsb' 8 8) := by
  decide +kernel

theorem witness_EveryCommandKeepsTheRequestsSound :
    RequestsSound { Rqu.cleared with outgoing := [acquire500], live := [70] }
      ∧ exec .leave member = .next (member.unlessHeld member.hostLeave) :=
  ⟨by unfold RequestsSound; decide +kernel, rfl⟩

/-- A HALTED station with a configuration and a strap number. -/
def configured (n : BitVec 5) (m : BitVec 3) (strap : BitVec 4) : State :=
  { State.reset with stc := { station := .halted, leave := .idle, config := ⟨n, 0, m⟩, strap := strap } }

/-- ENABLE's condition on the configuration, as the statement has it. -/
abbrev inRange (s : State) : Prop :=
  (2 ≤ s.stc.config.n.toNat ∧ s.stc.config.n.toNat ≤ 16) ∧ (1 ≤ s.stc.config.m.toNat ∧ s.stc.config.m.toNat ≤ 4)
    ∧ s.stc.strap.toNat < s.stc.config.n.toNat

/-- Each end of the ranges of N, M and the strap number. -/
theorem witness_EnableStartsListening :
    (member.pins.resetLow = false ∧ member.stc.station ≠ .halted ∧ member.stc.station ≠ .detached)
      ∧ ((configured 1 1 0).stc.station = .halted ∧ ¬ inRange (configured 1 1 0) ∧ ¬ inRange (configured 17 1 0)
          ∧ ¬ inRange (configured 2 0 0) ∧ ¬ inRange (configured 2 5 0) ∧ ¬ inRange (configured 2 1 2))
      ∧ (inRange (configured 2 1 1) ∧ inRange (configured 16 4 15))
      ∧ ((base .detached).stc.station = .detached ∧ (base .detached).trk.aligned = true)
      ∧ ({ base .detached with trk := Trk.cleared } : State).trk.aligned = false :=
  ⟨by decide, by decide, by decide, by decide, rfl⟩

theorem witness_LeaveAbortsTheQueueAndDrains :
    member.pins.resetLow = false ∧ leaving.stc.station ≠ .member ∧ member.stc.station = .member := by
  decide +kernel

theorem witness_DisableHaltsTheStation :
    State.reset.pins.resetLow = false ∧ State.reset.stc.station = .halted ∧ member.pins.resetLow = false
      ∧ member.stc.station ≠ .halted := by
  decide +kernel

theorem witness_ResetsClearTheStation :
    (({ State.reset with pins := { resetLow := true, lineActive := false } } : State).pins.resetLow = true
        ∧ (∀ sn, Instr.enable ≠ .pinReset sn) ∧ Instr.enable ≠ .resetRelease)
      ∧ member.pins.resetLow = false :=
  ⟨⟨rfl, nofun, by decide⟩, rfl⟩

theorem witness_ConfigurationAndStrapAreHeld :
    (Instr.enable.wellFormed = true ∧ exec .enable State.reset = .next (State.reset.unlessHeld State.reset.hostEnable)
        ∧ (∀ sn, Instr.enable ≠ .pinReset sn) ∧ ∀ w, Instr.enable ≠ .configWrite w)
      ∧ ((Instr.configWrite 0).wellFormed = true ∧ exec (.configWrite 0) member = .next (member.unlessHeld (member.writeConfig 0))
        ∧ (∀ sn, Instr.configWrite 0 ≠ .pinReset sn) ∧ member.stc.station ≠ .halted) :=
  ⟨⟨rfl, rfl, nofun, nofun⟩, rfl, rfl, nofun, by decide⟩

/-- The receiver in each of its states, the transmitter in each of its. -/
theorem witness_ActivityMovesTheReceiver :
    (member.pins.resetLow = false ∧ member.lif.receiver = .quiet ∧ member.lif.transmitter = .idle)
      ∧ (atItemEnd member [] false).lif.receiver = .trailing ∧ State.reset.lif.receiver = .off
      ∧ ({ member.lif with receiver := .active } : Lif).receiver = .active
      ∧ ({ member.lif with transmitter := .sending } : Lif).transmitter = .sending := by
  decide +kernel

theorem witness_TransmitterEndsOrStops :
    (let s := member.setLif { member.lif with transmitter := .sending, sent := some (.stream found1) }
     s.pins.resetLow = false ∧ s.lif.transmitter = .sending ∧ s.lif.sent = some (.stream found1))
      ∧ member.lif.transmitter = .idle := by
  decide +kernel

/-- A transfer frame of item 1 of 3, for station 1 and the JOIN of rotation 4. -/
def transfer1 : TransferFrame :=
  TransferFrame.sealed (profileOf ⟨3, 0, 2⟩)
    { sender := 0, moreFollows := false, joiner := 1, snapRotation := 4, donorRotation := 5, first := 1, total := 3,
      items := [.record ⟨3, [holds 1 .shared], []⟩], check := 0 }

/-- The bytes of an encoded frame with one byte changed and the frame check made right again. -/
def altered (bytes : List Byte) (i : Nat) (b : Byte) : List Byte :=
  let l := bytes.set i b
  l.take (l.length - 4) ++ bytes32 (crc ((l.drop 2).take (l.length - 6)))

/-- The frame that the bytes of an item carry to a station of a group of 3, when they carry one in range. -/
def carried (bytes : List Byte) : Option Frame :=
  parseFrame 3 ((bytes.drop 2).take (bytes.length - 6)) (word32At bytes (bytes.length - 4))

/-- Items whose frame check holds and that carry no frame: by the first bad field, a kind of 8 and FOUND's flags in a MEMBER
frame (checks 5 and 6); an op count of 2 over one entry (check 7); sender 3, echo sender 3, an entry's op kind 0, spare bit
and resource 0; a transfer frame's joiner 3, first item 0 for a record, resource 0, claim of station 3, claim of state 3
(check 8). -/
def uncarried : List (List Byte) :=
  let m := encodeFrame member.profile (.stream own1)
  let t := encodeFrame member.profile (.transfer transfer1)
  [altered m 3 8, altered m 4 0, altered m 24 2, altered m 5 3, altered m 14 3, altered m 25 0, altered m 25 0x1A,
    altered (altered m 27 0) 28 0, altered t 6 3, altered t 15 0, altered (altered t 18 0) 19 0, altered t 21 3, altered t 22 7]

/-- Bytes that hold one frame carry it, in range. -/
theorem carries {bytes : List Byte} {f : Frame} (hl : 29 ≤ bytes.length) (h : carried bytes = some f) :
    f.wf 3 = true ∧ CarriedBy bytes f := (parseFrame_iff hl).mp h

/-- Bytes that hold no frame carry none in range. -/
theorem carries_none {bytes : List Byte} (hl : 29 ≤ bytes.length) (h : carried bytes = none) :
    ∀ f : Frame, f.wf 3 = true → ¬ CarriedBy bytes f := fun f hf hc => by
  have := (parseFrame_iff hl).mpr ⟨hf, hc⟩
  rw [show parseFrame 3 _ _ = none from h] at this
  cases this

/-- A frame of the station itself, one of another station with an operation, and a transfer frame; a run of bits that is
no whole number of bytes; an item of no bytes; one with its checks, of the station's profile and of another; a stream and a
transfer frame that bytes carry; bytes that carry none, by each of checks 5 to 8; and an item whose start was missed. -/
theorem witness_EncodedFramesReadBack :
    ((3 ≤ 16 ∧ (Frame.stream own1).wf 3 = true) ∧ (Frame.stream own1).sender ≠ 0
      ∧ (Frame.stream found1).wf 3 = true ∧ (Frame.transfer transfer1).wf 3 = true
      ∧ (Frame.transfer transfer1).sender ≠ 1
      ∧ [true].length % 8 ≠ 0 ∧ ¬ CarriesCheck []
      ∧ (CarriesCheck (encodeFrame member.profile (.stream own1))
          ∧ (encodeFrame member.profile (.stream own1)).getD 2 0 = member.profile
          ∧ (encodeFrame member.profile (.stream own1)).getD 2 0 ≠ member.profile + 1)
      ∧ ((member.setLif (Lif.enabled ⟨3, 0, 2⟩ true)).lif.item.missedStart = true
          ∧ member.lif.item.missedStart = false ∧ member.lif.item.tooLong = false ∧ member.lif.item.mismatch = false
          ∧ member.lif.profile = some (profileOf ⟨3, 0, 2⟩)))
      ∧ (∀ f ∈ [Frame.stream own1, .transfer transfer1],
          let bytes := encodeFrame member.profile f
          CarriesCheck bytes ∧ bytes.getD 2 0 = member.profile ∧ f.wf 3 = true ∧ CarriedBy bytes f)
      ∧ ∀ bytes ∈ uncarried, CarriesCheck bytes ∧ bytes.getD 2 0 = member.profile
          ∧ ∀ f : Frame, f.wf 3 = true → ¬ CarriedBy bytes f := by
  have hin : ∀ f ∈ [Frame.stream own1, .transfer transfer1],
      CarriesCheck (encodeFrame member.profile f) ∧ (encodeFrame member.profile f).getD 2 0 = member.profile
        ∧ carried (encodeFrame member.profile f) = some f := by
    unfold CarriesCheck
    decide +kernel
  have hout : ∀ bytes ∈ uncarried, CarriesCheck bytes ∧ bytes.getD 2 0 = member.profile ∧ carried bytes = none := by
    unfold CarriesCheck
    decide +kernel
  refine ⟨?_, fun f hf => ⟨(hin f hf).1, (hin f hf).2.1, carries (hin f hf).1.1 (hin f hf).2.2⟩,
    fun bytes hb => ⟨(hout bytes hb).1, (hout bytes hb).2.1, carries_none (hout bytes hb).1.1 (hout bytes hb).2.2⟩⟩
  unfold CarriesCheck
  decide +kernel

/-- The last station of the group, in whose turn the rotation wraps, and the first. -/
theorem witness_SkipPointPassesTheTurn :
    (∀ h ∈ [0, 2],
      let s := member.setTrk { member.trk with holder := some h }
      s.pins.resetLow = false ∧ s.stc.station ≠ .halted ∧ s.stc.station ≠ .founding
        ∧ (s.stc.station = .listening → s.trk.aligned = true) ∧ s.trk.skipTimer = some 20 ∧ s.trk.holder = some h)
      ∧ (inTurn (member.setTrk Trk.cleared)).trk.skipTimer = none := by
  decide +kernel

theorem witness_ListenWindowExpiryFoundsAGroup :
    let s := (base .listening).setTrk { Trk.cleared with window := some 295024 }
    s.pins.resetLow = false ∧ s.stc.station = .listening ∧ s.trk.aligned = false ∧ s.trk.window = some 295024
      ∧ s.lif.receiver = .quiet := by
  decide +kernel

/-- A lone-turn count of exactly 2N. -/
theorem witness_LoneStationLosesAlignment :
    (∀ st ∈ [StationState.founding, .joining, .loading, .detached, .listening, .member, .leaving],
      let s := (base st).setTrk { member.trk with lone := 6 }
      s.pins.resetLow = false ∧ s.stc.station = st ∧ s.trk.aligned = true ∧ 2 * s.groupSize ≤ s.trk.lone) := by
  decide +kernel

theorem witness_AYieldedOrSilentTurnTakesNothing :
    (atItemEnd member [] false).lif.receiver ≠ .quiet
      ∧ ((inTurn (base .detached)).trk.phase = .waiting ∧ (inTurn (base .detached)).stc.station = .detached)
      ∧ (let s := (inTurn (base .joining)).setXfu { Xfu.cleared with joinMark := some ⟨⟨5, 1⟩, none⟩ }
         s.trk.phase = .waiting ∧ s.stc.station = .joining ∧ s.xfu.joinMark ≠ none) := by
  decide +kernel

/-- Nine requests queued with the own mark none; none queued; the own mark set. -/
theorem witness_MemberFrameCarriesUpToEightRequests :
    (OwnTurnStarts ((inTurn member).setRqu { Rqu.cleared with outgoing := List.replicate 9 acquire500 })
        ∧ (inTurn member).stc.station = .member ∧ (inTurn member).cmu.ownMark = none)
      ∧ OwnTurnStarts (inTurn member) ∧ (inTurn member).rqu.outgoing = []
      ∧ OwnTurnStarts ((inTurn member).setCmu { Cmu.cleared with ownMark := some ⟨⟨4, 1⟩, .stream .member, false⟩ }) := by
  unfold OwnTurnStarts
  decide +kernel

theorem witness_LeavingStationSendsLeaveWhenDrained :
    (OwnTurnStarts (inTurn leaving) ∧ (inTurn leaving).stc.station = .leaving ∧ (inTurn leaving).stc.leave = .draining
        ∧ (inTurn leaving).rqu.inflight = [])
      ∧ (OwnTurnStarts ((inTurn leaving).setRqu { Rqu.cleared with inflight := [acquire500] })) := by
  unfold OwnTurnStarts
  decide +kernel

theorem witness_JoinStartsTheAttempt :
    (OwnTurnStarts (inTurn (base .listening)) ∧ (inTurn (base .listening)).stc.station = .listening
        ∧ (inTurn (base .listening)).trk.aligned = true)
      ∧ (OwnTurnStarts (inTurn (base .joining)) ∧ (inTurn (base .joining)).stc.station = .joining
        ∧ (inTurn (base .joining)).xfu.joinMark = none) := by
  unfold OwnTurnStarts
  decide +kernel

theorem witness_LoadingStationAsksThenReportsReady :
    ∀ p ∈ [JoinPhase.gathering, .replaying, .confirming],
      OwnTurnStarts ((inTurn (base .loading)).setXfu { Xfu.cleared with phase := p })
        ∧ (inTurn (base .loading)).stc.station = .loading := by
  unfold OwnTurnStarts
  decide +kernel

/-- A plan of an image of one item, at its first. -/
theorem witness_DonorSendsItsItemsFourToAFrame :
    let s := (member.setTrk { member.trk with holder := some 1, phase := .transmitting }).setXfu
      { Xfu.cleared with plan := some ⟨⟨4, 2, [.record ⟨3, [holds 1 .shared], []⟩]⟩, 0, 0⟩ }
    s.pins.resetLow = false ∧ s.lif.transmitter = .idle ∧ s.lif.receiver = .quiet ∧ s.trk.phase = .transmitting
      ∧ s.xfu.plan = some ⟨⟨4, 2, [.record ⟨3, [holds 1 .shared], []⟩]⟩, 0, 0⟩ := by
  decide +kernel

/-- The FOUND of station 0. -/
def found0 : StreamFrame := StreamFrame.sealed (profileOf ⟨3, 0, 2⟩) { found1 with sender := 0 }

/-- A fault that is no frame of the station's own is due. -/
theorem faultDue {s : State} {h : Heard} (hd : Delivers s h) (hf : h.isFault = true := by decide) : DeliversFault s none h :=
  ⟨hf, hd⟩

/-- What came of a frame of the station's own is due, a fault. -/
theorem ownFaultDue {s : State} {f : Frame} {h : Heard} (hd : DeliversOwn s f h) (hf : h.isFault = true := by decide) :
    DeliversFault s (some f) h :=
  ⟨hf, hd⟩

/-- Another station's stream frame is due. -/
theorem due {s : State} {g : StreamFrame} (h : g.kind ≠ .found ∧ Delivers s (.stream g) ∧ g.sender ≠ s.number) :
    DeliversStream s g :=
  ⟨h.1, .inl h.2⟩

/-- A stream frame of the station's own is due, heard valid. -/
theorem dueOwn {s : State} {f : Frame} {g : StreamFrame}
    (h : g.kind ≠ .found ∧ DeliversOwn s f (.stream g) ∧ g.sender = s.number) : DeliversStream s g :=
  ⟨h.1, .inr ⟨f, h.2⟩⟩

/-- The frame of station 2 that echoes what is given is due at a station that hears it. -/
theorem joinOf2_is_due (s0 : State) (e : Option FrameRef) (hn : s0.number = 1)
    (h : Delivers (hearing s0 (joinOf2 e)) (.stream (joinOf2 e))) : DeliversStream (hearing s0 (joinOf2 e)) (joinOf2 e) :=
  due ⟨nofun, h, fun he => absurd (show (2 : Nat) = 1 from he.trans hn) (by decide : (2 : Nat) ≠ 1)⟩

/-- A station in a phase of a join attempt, with its join mark. -/
def attempting (st : StationState) (p : JoinPhase) (m : Option JoinMark) : State :=
  (base st).setXfu { Xfu.cleared with phase := p, joinMark := m }

/-- A plain fault, a frame of another profile and one of a second station 1, with the turn passing and with the own turn
waiting; a fault in LISTENING with the flag clear; a FOUND heard by a MEMBER. Outside the replica states: a fault, and a
FOUND, in every state that hears them; a valid frame in LISTENING, with the flag set and clear, and in DETACHED. -/
theorem witness_FaultIsAHoleAndPassesTheTurn :
    (let s := atItemEnd member [] false
     Delivers s .fault ∧ s.stc.station = .member ∧ s.xfu.phase = .idle ∧ s.trk.phase ≠ .waiting ∧ s.trk.holder = some 0)
      ∧ (let s := atItemEnd member (bitsOfBytes (encodeFrame (member.profile + 1) (.stream pending0))) false
         Delivers s (.profile (member.profile + 1)) ∧ (Heard.profile (member.profile + 1)).isFault = true)
      ∧ (Delivers (hearing member own1) .duplicate ∧ Heard.duplicate.isFault = true)
      ∧ (let s := atItemEnd (inTurn leaving) [] false
         Delivers s .fault ∧ s.stc.station = .leaving ∧ s.trk.phase = .waiting)
      ∧ (let s := atItemEnd ((base .listening).setTrk { Trk.cleared with window := some 7 }) [] false
         Delivers s .fault ∧ s.stc.station = .listening ∧ s.trk.aligned = false ∧ s.xfu.phase = .idle)
      ∧ (Delivers (hearing member found0) (.stream found0) ∧ found0.kind = .found)
      ∧ (∀ s0 ∈ [base .listening, base .detached],
          DeliversFault (atItemEnd s0 [] false) none .fault ∧ s0.xfu.phase = .idle
            ∧ (s0.stc.station = .listening ∧ s0.trk.aligned = true ∨ s0.stc.station = .detached))
      ∧ (∀ m ∈ [none, some ⟨⟨4, 1⟩, none⟩],
          let s := atItemEnd (attempting .joining .awaiting m) [] false
          DeliversFault s none .fault ∧ s.stc.station = .joining ∧ s.xfu.phase = .awaiting ∧ s.xfu.joinMark = m)
      ∧ (∀ s0 ∈ [base .listening, base .detached, attempting .joining .awaiting none, attempting .loading .gathering none,
            attempting .loading .replaying none, attempting .loading .confirming none],
          Delivers (hearing s0 found0) (.stream found0) ∧ found0.sender ≠ s0.number)
      ∧ (∀ s0 ∈ [base .listening, (base .listening).setTrk { Trk.cleared with window := some 7 }, base .detached],
          DeliversStream (hearing s0 (joinOf2 none)) (joinOf2 none) ∧ s0.xfu.phase = .idle) := by
  refine ⟨by unfold Delivers; decide +kernel, by unfold Delivers; decide +kernel, by unfold Delivers; decide +kernel,
    by unfold Delivers; decide +kernel, by unfold Delivers; decide +kernel, by unfold Delivers; decide +kernel, ?_, ?_,
    by unfold Delivers; decide +kernel, ?_⟩ <;>
    simp only [List.forall_mem_cons, List.not_mem_nil, false_imp_iff, implies_true, and_true]
  · exact ⟨⟨faultDue (by unfold Delivers; decide +kernel), by decide +kernel⟩,
      faultDue (by unfold Delivers; decide +kernel), by decide +kernel⟩
  · exact ⟨⟨faultDue (by unfold Delivers; decide +kernel), by decide +kernel⟩,
      faultDue (by unfold Delivers; decide +kernel), by decide +kernel⟩
  · exact ⟨⟨joinOf2_is_due _ _ rfl (by unfold Delivers; decide +kernel), rfl⟩,
      ⟨joinOf2_is_due _ _ rfl (by unfold Delivers; decide +kernel), rfl⟩,
      joinOf2_is_due _ _ rfl (by unfold Delivers; decide +kernel), rfl⟩

/-- The own LEAVE. -/
def leave1 : StreamFrame := frame .leave 1 (some ⟨⟨4, 0⟩, 7⟩) (some 3) []

/-- The own frame with an operation, and a bare one; the own LEAVE, which sent the leave phase to SENT; a transfer frame. -/
theorem witness_OwnFaultTakesTheOwnMark :
    (∀ f ∈ [own1, frame .member 1 (some ⟨⟨4, 0⟩, 7⟩) (some 3) []],
      let s := hearingOwn (member.setTrk { member.trk with holder := some 1, phase := .transmitting }) (.stream f) []
      DeliversOwn s (.stream f) .fault ∧ s.stc.station = .member ∧ s.xfu.phase = .idle ∧ s.trk.phase = .transmitting
        ∧ s.trk.holder = some 1 ∧ s.cmu.ownMark = none)
      ∧ (let s := hearingOwn (leaving.setStc { leaving.stc with leave := .sent }) (.stream leave1) []
         DeliversFault s (some (.stream leave1)) .fault ∧ s.stc.station = .leaving ∧ s.xfu.phase = .idle
           ∧ (sentItem (.stream leave1)).kind = .stream .leave)
      ∧ DeliversFault (hearingOwn member (.transfer transfer1) []) (some (.transfer transfer1)) .fault :=
  ⟨by unfold DeliversOwn; decide +kernel, ⟨ownFaultDue (by unfold DeliversOwn; decide +kernel), rfl, rfl, rfl⟩,
    ownFaultDue (by unfold DeliversOwn; decide +kernel)⟩

/-- The next frame of station 1 itself, with an operation, that names station 0's frame. -/
def next1 : StreamFrame :=
  frame .member 1 (some pending0.ref) (some (crc (bytes32 0 ++ bytes32 pending0.check))) [acquire500]

/-- Station 1 at the end of its own frame, heard valid. -/
def hearing1 (s : State) (g : StreamFrame) : State :=
  hearingOwn s (.stream g) (bitsOfBytes (encodeFrame (profileOf ⟨3, 0, 2⟩) (.stream g)))

/-- Another station's frame, and the station's own, with an operation and heard valid. -/
theorem witness_ConfirmingEchoCommitsThePendingFrame :
    (let g := joinOf2 (some pending0.ref)
     let s := hearing (withPending member pending0) g
     DeliversStream s g ∧ s.stc.station = .member ∧ s.xfu.phase = .idle ∧ Confirms s.cmu pending0 g ∧ s.cmu.ownMark = none
       ∧ pending0.sender ≠ s.number ∧ (s.tbu.entry s.number).isMember = true
       ∧ ((boundedTable s pending0).tbu.entry s.number).isMember = true)
      ∧ (let s := hearing1 (withPending (inTurn member) pending0) next1
         DeliversStream s next1 ∧ s.stc.station = .member ∧ s.xfu.phase = .idle ∧ Confirms s.cmu pending0 next1
           ∧ s.cmu.ownMark = none ∧ next1.sender = s.number ∧ next1.ops ≠ []) :=
  ⟨⟨joinOf2_is_due _ _ rfl (by unfold Delivers; decide +kernel), by unfold Confirms; decide +kernel⟩,
    dueOwn (f := .stream next1) (by unfold DeliversOwn; decide +kernel), by unfold Confirms; decide +kernel⟩

/-- The station with its own frame pending, its request in flight. -/
def withOwn (s : State) : State :=
  { s with
    cmu := { s.cmu with waiting := some own1, ownMark := some ⟨⟨5, 1⟩, .stream .member, false⟩ }
    rqu := { outgoing := [], inflight := [acquire500], carrier := some ⟨5, 1⟩, live := [70] } }

/-- The station with a frame of its own pending that carries no request. -/
def withSent (s : State) (p : StreamFrame) : State :=
  s.setCmu { s.cmu with waiting := some p, ownMark := some ⟨p.id, .stream p.kind, false⟩ }

/-- The own MEMBER frame, with the own entry MEMBER and, its operations discarded, NONE; and the own FOUND. -/
theorem witness_CommittedOwnFrameEndsItsRequests :
    ((pairTable.begin.tbu.entry own1.sender).isMember = true ∧ (Tbu.cleared.begin.tbu.entry own1.sender).isMember = false)
      ∧ (∀ t ∈ [(pairTable, true), (Tbu.cleared, false)],
          let g := joinOf2 (some own1.ref)
          let s := hearing ((withOwn member).setTbu t.1) g
          DeliversStream s g ∧ s.stc.station = .member ∧ s.xfu.phase = .idle ∧ Confirms s.cmu own1 g ∧ own1.kind = .member
            ∧ own1.sender = s.number ∧ s.cmu.ownMark = some ⟨⟨own1.rotation, own1.sender⟩, .stream .member, false⟩
            ∧ s.rqu.carrier = some ⟨own1.rotation, own1.sender⟩ ∧ s.rqu.inflight.length = own1.ops.length
            ∧ (s.tbu.entry s.number).isMember = t.2 ∧ ((boundedTable s own1).tbu.entry s.number).isMember = t.2)
      ∧ (let g := joinOf2 (some found1.ref)
         let s := hearing (withSent ((base .member)) found1) g
         DeliversStream s g ∧ s.stc.station = .member ∧ s.xfu.phase = .idle ∧ Confirms s.cmu found1 g
           ∧ found1.sender = s.number ∧ s.cmu.ownMark = some ⟨⟨found1.rotation, found1.sender⟩, .stream found1.kind, false⟩
           ∧ (s.tbu.entry s.number).isMember = false ∧ found1.kind ≠ .member ∧ found1.kind ≠ .leave
           ∧ s.rqu.carrier ≠ some ⟨found1.rotation, found1.sender⟩) := by
  refine ⟨by decide +kernel, ?_, joinOf2_is_due _ _ rfl (by unfold Delivers; decide +kernel),
    by unfold Confirms; decide +kernel⟩
  simp only [List.forall_mem_cons, List.not_mem_nil, false_imp_iff, implies_true, and_true]
  exact ⟨⟨joinOf2_is_due _ _ rfl (by unfold Delivers; decide +kernel), by unfold Confirms; decide +kernel⟩,
    joinOf2_is_due _ _ rfl (by unfold Delivers; decide +kernel), by unfold Confirms; decide +kernel⟩

/-- A frame with the echo none, at stations with L none: it denies P. -/
theorem denies_own1 : Denies (withOwn member).cmu (joinOf2 none) :=
  ⟨(fun _ _ h => nomatch h), rfl, .inl rfl⟩

/-- The station whose own frame stood behind station 0's as a hole, its request in flight. -/
def withOwnHole (s : State) : State :=
  { withOwn s with
    cmu := { s.cmu with waiting := some pending0, holes := 1, ownMark := some ⟨⟨5, 1⟩, .stream .member, true⟩ } }

/-- A frame with the echo none denies any P where L is none. -/
theorem denies_sent (s : State) (p : StreamFrame) (hl : s.cmu.last = none) : Denies (hearing (withSent s p) (joinOf2 none)).cmu
    (joinOf2 none) :=
  ⟨(fun _ _ h => nomatch h), hl.symm, .inl rfl⟩

/-- The station whose own READY stood behind station 0's frame as a hole. -/
def withOwnReadyHole : State :=
  { member with cmu := { member.cmu with waiting := some pending0, holes := 1, ownMark := some ⟨⟨5, 1⟩, .stream .ready, true⟩ } }

/-- An own frame that was P, voided, in MEMBER and in LEAVING; an own hole, voided by the commit of P, in both. No own frame
to void; the own LEAVE and the own FOUND voided; and an own hole without requests. -/
theorem witness_VoidedOwnFrameReturnsItsRequests :
    (∀ s0 ∈ [withOwn member, withOwn leaving],
      let g := joinOf2 none
      let s := hearing s0 g
      DeliversStream s g ∧ Denies s.cmu g ∧ s.xfu.phase = .idle ∧ s.cmu.ownMark = some ⟨⟨5, 1⟩, .stream .member, false⟩
        ∧ s.rqu.carrier = some ⟨5, 1⟩ ∧ s.rqu.outgoing = [])
      ∧ (∀ s0 ∈ [withOwnHole member, withOwnHole leaving],
        let g := joinOf2 (some pending0.ref)
        let s := hearing s0 g
        DeliversStream s g ∧ Confirms s.cmu pending0 g ∧ s.xfu.phase = .idle
          ∧ s.cmu.ownMark = some ⟨⟨5, 1⟩, .stream .member, true⟩ ∧ s.rqu.carrier = some ⟨5, 1⟩ ∧ s.rqu.outgoing = []
          ∧ pending0.sender ≠ s.number ∧ ((boundedTable s pending0).tbu.entry s.number).isMember = true)
      ∧ (let s := hearing (withPending member pending0) (joinOf2 none)
         DeliversStream s (joinOf2 none) ∧ s.stc.station = .member ∧ s.xfu.phase = .idle ∧ s.cmu.ownMark = none
           ∧ Denies s.cmu (joinOf2 none))
      ∧ (∀ x ∈ [(leaving, leave1), (member, found1)],
          let s := hearing (withSent x.1 x.2) (joinOf2 none)
          DeliversStream s (joinOf2 none) ∧ Denies s.cmu (joinOf2 none) ∧ s.xfu.phase = .idle
            ∧ s.cmu.ownMark = some ⟨x.2.id, .stream x.2.kind, false⟩ ∧ s.rqu.carrier ≠ some x.2.id)
      ∧ (let g := joinOf2 (some pending0.ref)
         let s := hearing withOwnReadyHole g
         DeliversStream s g ∧ s.stc.station = .member ∧ s.xfu.phase = .idle ∧ Confirms s.cmu pending0 g
           ∧ s.cmu.ownMark = some ⟨⟨5, 1⟩, .stream .ready, true⟩ ∧ s.rqu.carrier ≠ some ⟨5, 1⟩
           ∧ pending0.sender ≠ s.number ∧ ((boundedTable s pending0).tbu.entry s.number).isMember = true) := by
  refine ⟨?_, ?_, ⟨joinOf2_is_due _ _ rfl (by unfold Delivers; decide +kernel), rfl, rfl, rfl,
      (fun _ _ h => nomatch h), rfl, .inl rfl⟩, ?_,
    joinOf2_is_due _ _ rfl (by unfold Delivers; decide +kernel), by unfold Confirms; decide +kernel⟩ <;> simp only [List.forall_mem_cons, List.not_mem_nil, false_imp_iff, implies_true, and_true]
  · exact ⟨⟨joinOf2_is_due _ _ rfl (by unfold Delivers; decide +kernel), denies_own1, by decide +kernel⟩,
      joinOf2_is_due _ _ rfl (by unfold Delivers; decide +kernel), denies_own1, by decide +kernel⟩
  · exact ⟨⟨joinOf2_is_due _ _ rfl (by unfold Delivers; decide +kernel), by unfold Confirms; decide +kernel⟩,
      joinOf2_is_due _ _ rfl (by unfold Delivers; decide +kernel), by unfold Confirms; decide +kernel⟩
  · exact ⟨⟨joinOf2_is_due _ _ rfl (by unfold Delivers; decide +kernel), denies_sent _ _ rfl, by decide +kernel⟩,
      joinOf2_is_due _ _ rfl (by unfold Delivers; decide +kernel), denies_sent _ _ rfl, by decide +kernel⟩

/-- An echo that names no frame the station knows. -/
def strange : StreamFrame := joinOf2 (some ⟨⟨3, 0⟩, 1⟩)

/-- A station with a hole count and a discordance count. -/
def doubtful (holes : Nat) (count : Nat) (from_ : Option Nat) : State :=
  hearing (member.setCmu { Cmu.cleared with holes := holes, discordance := count, discordSender := from_ }) strange

theorem strange_is_unknown (h c : Nat) (f : Option Nat) : NamesUnknown (doubtful h c f).cmu strange :=
  ⟨(fun _ hp => nomatch hp), nofun⟩

/-- Station 0 names station 0's earlier frame `e`, with a stream check that is not the station's. -/
def astray (e : FrameRef) : StreamFrame := frame .member 0 (some e) (some 99) []

/-- A station with P, L, a hole and a discordance count, that hears such a frame. -/
def disputing (e : FrameRef) (count : Nat) (from_ : Option Nat) : State :=
  hearing (member.setCmu { Cmu.cleared with
    last := some ⟨⟨3, 0⟩, 1⟩, waiting := some pending0, holes := 1, discordance := count, discordSender := from_ }) (astray e)

/-- It names P, or L and not P: the stream check differs, though a hole is pending. -/
theorem checks_differ (n : Nat) (f : Option Nat) :
    ChecksDiffer (disputing pending0.ref n f).cmu (astray pending0.ref)
      ∧ ChecksDiffer (disputing ⟨⟨3, 0⟩, 1⟩ n f).cmu (astray ⟨⟨3, 0⟩, 1⟩) := by
  refine ⟨.inl ⟨pending0, 99, rfl, rfl, rfl, show (99 : Word32) ≠ crc (bytes32 0 ++ bytes32 pending0.check) by decide +kernel⟩,
    .inr ⟨?_, rfl, 99, rfl, show (99 : Word32) ≠ 0 by decide⟩⟩
  intro p hp
  obtain rfl : pending0 = p := Option.some.inj hp
  decide +kernel

/-- The first discordant frame and a second one of the same sender, by an unknown echo; by the stream check with a hole
pending, under a frame that names P and one that names L. -/
theorem witness_DiscordantFrameIsIgnoredAndCounted :
    (∀ s ∈ [doubtful 0 0 none, doubtful 0 1 (some 2)],
      DeliversStream s strange ∧ s.stc.station = .member ∧ s.xfu.phase = .idle ∧ IsDiscordant s.cmu strange
        ∧ (s.cmu.discordance = 0 ∨ (s.cmu.discordance = 1 ∧ s.cmu.discordSender = some strange.sender)))
      ∧ ∀ e ∈ [pending0.ref, ⟨⟨3, 0⟩, 1⟩],
        let s := disputing e 0 none
        DeliversStream s (astray e) ∧ s.stc.station = .member ∧ s.xfu.phase = .idle ∧ IsDiscordant s.cmu (astray e)
          ∧ s.cmu.holes = 1 ∧ s.cmu.discordance = 0 := by
  refine ⟨?_, ?_⟩ <;> simp only [List.forall_mem_cons, List.not_mem_nil, false_imp_iff, implies_true, and_true]
  · exact ⟨⟨joinOf2_is_due _ _ rfl (by unfold Delivers; decide +kernel), rfl, rfl, .inr ⟨strange_is_unknown _ _ _, rfl⟩,
        by decide +kernel⟩,
      joinOf2_is_due _ _ rfl (by unfold Delivers; decide +kernel), rfl, rfl, .inr ⟨strange_is_unknown _ _ _, rfl⟩,
        by decide +kernel⟩
  · exact ⟨⟨due (by unfold Delivers; decide +kernel), rfl, rfl, .inl (checks_differ _ _).1, rfl, rfl⟩,
      due (by unfold Delivers; decide +kernel), rfl, rfl, .inl (checks_differ _ _).2, rfl, rfl⟩

/-- One hole and an unknown echo; a discordant frame of a second sender, by its echo and by its stream check. -/
theorem witness_DivergenceReturnsToListening :
    (let s := doubtful 1 0 none
     DeliversStream s strange ∧ s.stc.station = .member ∧ s.xfu.phase = .idle ∧ NamesUnknown s.cmu strange
       ∧ s.cmu.holes ≠ 0)
      ∧ (let s := doubtful 0 1 (some 0)
         DeliversStream s strange ∧ IsDiscordant s.cmu strange ∧ s.cmu.discordance = 1
           ∧ s.cmu.discordSender ≠ some strange.sender)
      ∧ (let s := disputing pending0.ref 1 (some 2)
         DeliversStream s (astray pending0.ref) ∧ IsDiscordant s.cmu (astray pending0.ref) ∧ s.cmu.discordance = 1
           ∧ s.cmu.discordSender ≠ some (astray pending0.ref).sender) :=
  ⟨⟨joinOf2_is_due _ _ rfl (by unfold Delivers; decide +kernel), rfl, rfl, strange_is_unknown _ _ _, by decide⟩,
    ⟨joinOf2_is_due _ _ rfl (by unfold Delivers; decide +kernel), .inr ⟨strange_is_unknown _ _ _, rfl⟩, rfl,
      by decide +kernel⟩,
    due (by unfold Delivers; decide +kernel), .inl (checks_differ _ _).1, rfl, by decide +kernel⟩

theorem witness_FoundLoopbackDecidesTheAttempt :
    (let s := hearingOwn (base .founding) (.stream found1) (bitsOfBytes (encodeFrame (profileOf ⟨3, 0, 2⟩) (.stream found1)))
     s.stc.station = .founding ∧ s.xfu.phase = .idle ∧ DeliversOwn s (.stream found1) (.stream found1)
       ∧ found1.kind = .found ∧ found1.sender = s.number ∧ found1.moreFollows = false)
      ∧ (let s := hearingOwn (base .founding) (.stream found1) []
         s.stc.station = .founding ∧ DeliversOwn s (.stream found1) .fault) := by
  unfold DeliversOwn
  decide +kernel

/-- The own LEAVE pending at a LEAVING station. -/
theorem witness_OwnLeaveCommittedDetaches :
    let g := joinOf2 (some leave1.ref)
    let s := hearing (withPending leaving leave1) g
    DeliversStream s g ∧ s.stc.station = .leaving ∧ s.xfu.phase = .idle ∧ Confirms s.cmu leave1 g ∧ leave1.kind = .leave
      ∧ leave1.sender = s.number ∧ ((boundedTable s leave1).tbu.entry s.number).isMember = true :=
  ⟨joinOf2_is_due _ _ rfl (by unfold Delivers; decide +kernel), by unfold Confirms; decide +kernel⟩

/-- Station 1 last seen in rotation 2 with M = 2: the boundary of 5 is the first that finds it absent. -/
def overdue : Tbu := { pairTable with roster := pairTable.roster.setIfInBounds 1 (.member 2), lastApplied := some 4 }

/-- It is seen by the commit of station 0's frame, and of the own MEMBER frame with an operation. -/
theorem witness_SelfAbsenceReturnsToListening :
    ∀ x ∈ [(withPending member pending0, pending0), (withOwn member, own1)],
      let g := joinOf2 (some x.2.ref)
      let s := hearing (x.1.setTbu overdue) g
      DeliversStream s g ∧ s.stc.station = .member ∧ s.xfu.phase = .idle ∧ Confirms s.cmu x.2 g
        ∧ (s.tbu.entry s.number).isMember = true ∧ ((boundedTable s x.2).tbu.entry s.number).isMember = false := by
  simp only [List.forall_mem_cons, List.not_mem_nil, false_imp_iff, implies_true, and_true]
  exact ⟨⟨joinOf2_is_due _ _ rfl (by unfold Delivers; decide +kernel), by unfold Confirms; decide +kernel⟩,
    joinOf2_is_due _ _ rfl (by unfold Delivers; decide +kernel), by unfold Confirms; decide +kernel⟩

/-- The station awaiting the fate of its JOIN, with entries queued after it. -/
def awaiting (queued : List CatchEntry) : State :=
  (base .joining).setXfu
    { Xfu.cleared with phase := .awaiting, joinMark := some ⟨⟨4, 1⟩, some 8⟩, catchup := queued }

/-- The JOIN of station 1 itself. -/
def ownJoin : StreamFrame := frame .join 1 none none []

/-- Named with 47 entries queued; not named with none; not named with a hole. Before the fate: the JOIN's loopback, valid and
a fault, another station's frame, and a frame with no JOIN sent; a fault and a naming frame with 47 and with 48 queued. -/
theorem witness_JoinFateFollowsTheFirstEcho :
    (let s := hearing (awaiting (List.replicate 47 (.frame pending0 false))) (joinOf2 (some ⟨⟨4, 1⟩, 8⟩))
     DeliversStream s (joinOf2 (some ⟨⟨4, 1⟩, 8⟩)) ∧ s.stc.station = .joining ∧ s.xfu.phase = .awaiting
       ∧ s.xfu.joinMark = some ⟨⟨4, 1⟩, some 8⟩ ∧ s.xfu.catchup.length < 48)
      ∧ (DeliversStream (hearing (awaiting []) strange) strange ∧ strange.echo ≠ some ⟨⟨4, 1⟩, 8⟩
          ∧ ∀ e ∈ (hearing (awaiting []) strange).xfu.catchup, e.isHole = false)
      ∧ (DeliversStream (hearing (awaiting [.hole none]) strange) strange
          ∧ ∃ e ∈ (hearing (awaiting [.hole none]) strange).xfu.catchup, e.isHole = true)
      ∧ (let s := attempting .joining .awaiting (some ⟨ownJoin.id, none⟩)
         (s.stc.station = .joining ∧ s.xfu.phase = .awaiting ∧ s.xfu.joinMark = some ⟨ownJoin.id, none⟩)
           ∧ (DeliversStream (hearing1 s ownJoin) ownJoin ∧ ownJoin.sender = s.number)
           ∧ DeliversStream (hearing s (joinOf2 none)) (joinOf2 none)
           ∧ DeliversFault (hearingOwn s (.stream ownJoin) []) (some (.stream ownJoin)) .fault)
      ∧ DeliversStream (hearing (attempting .joining .awaiting none) (joinOf2 none)) (joinOf2 none)
      ∧ (∀ n ∈ [47, 48],
          let s0 := awaiting (List.replicate n (.frame pending0 false))
          DeliversFault (atItemEnd s0 [] false) none .fault ∧ s0.xfu.catchup.length = n
            ∧ DeliversStream (hearing s0 (joinOf2 (some ⟨⟨4, 1⟩, 8⟩))) (joinOf2 (some ⟨⟨4, 1⟩, 8⟩))) := by
  refine ⟨⟨joinOf2_is_due _ _ rfl (by unfold Delivers; decide +kernel), by decide +kernel⟩,
    ⟨joinOf2_is_due _ _ rfl (by unfold Delivers; decide +kernel), by decide +kernel⟩,
    ⟨joinOf2_is_due _ _ rfl (by unfold Delivers; decide +kernel), by decide +kernel⟩,
    ⟨by decide +kernel, ⟨dueOwn (f := .stream ownJoin) (by unfold DeliversOwn; decide +kernel), rfl⟩,
      joinOf2_is_due _ _ rfl (by unfold Delivers; decide +kernel), ownFaultDue (by unfold DeliversOwn; decide +kernel)⟩,
    joinOf2_is_due _ _ rfl (by unfold Delivers; decide +kernel), ?_⟩
  simp only [List.forall_mem_cons, List.not_mem_nil, false_imp_iff, implies_true, and_true]
  exact ⟨⟨faultDue (by unfold Delivers; decide +kernel), rfl, joinOf2_is_due _ _ rfl (by unfold Delivers; decide +kernel)⟩,
    faultDue (by unfold Delivers; decide +kernel), rfl, joinOf2_is_due _ _ rfl (by unfold Delivers; decide +kernel)⟩

/-- A joiner with entries in its catch-up queue. -/
def catching (p : JoinPhase) (n : Nat) : State :=
  (base .loading).setXfu { Xfu.cleared with phase := p, catchup := List.replicate n (.hole none) }

/-- The LOADING frame of station 1 itself. -/
def loading1 : StreamFrame := frame .loading 1 none none []

/-- 47 entries held in GATHERING, 48 in REPLAYING; the joiner's own LOADING frame, valid and a fault; and faults. -/
theorem witness_CatchupQueueKeepsFortyEightItems :
    (DeliversStream (hearing (catching .gathering 47) strange) strange ∧ (catching .gathering 47).stc.station = .loading
        ∧ (catching .gathering 47).xfu.phase = .gathering ∧ (catching .gathering 47).xfu.catchup.length < 48)
      ∧ (DeliversStream (hearing (catching .replaying 48) strange) strange ∧ (catching .replaying 48).xfu.phase = .replaying
        ∧ 48 ≤ (catching .replaying 48).xfu.catchup.length)
      ∧ DeliversStream (hearing1 (catching .gathering 1) loading1) loading1
      ∧ DeliversFault (hearingOwn (catching .gathering 1) (.stream loading1) []) (some (.stream loading1)) .fault
      ∧ DeliversFault (atItemEnd (catching .gathering 47) [] false) none .fault
      ∧ DeliversFault (atItemEnd (catching .replaying 48) [] false) none .fault :=
  ⟨⟨joinOf2_is_due _ _ rfl (by unfold Delivers; decide +kernel), by decide +kernel⟩,
    ⟨joinOf2_is_due _ _ rfl (by unfold Delivers; decide +kernel), by decide +kernel⟩,
    dueOwn (f := .stream loading1) (by unfold DeliversOwn; decide +kernel),
    ownFaultDue (by unfold DeliversOwn; decide +kernel), faultDue (by unfold Delivers; decide +kernel),
    faultDue (by unfold Delivers; decide +kernel)⟩

/-- The JOIN of station 1 in rotation 4. -/
def join1 : FrameRef := ⟨⟨4, 1⟩, 8⟩

/-- A record of station 1. -/
def record3 : ResRecord := ⟨3, [holds 1 .shared], []⟩

/-- The roster item of an image of that JOIN, with these entries. -/
def rosterItem (es : List RosterEntry) : RosterItem := ⟨4, 6, join1, es⟩

/-- The transfer frame of item 0 of 2. -/
def transfer0 (es : List RosterEntry) : TransferFrame :=
  TransferFrame.sealed (profileOf ⟨3, 0, 2⟩)
    { sender := 0, moreFollows := false, joiner := 1, snapRotation := 4, donorRotation := 5, first := 0, total := 2,
      items := [.roster (rosterItem es)], check := 0 }

/-- Station 1 gathers, with item 1 of 2 held. -/
def gathering : State :=
  (base .loading).setXfu { Xfu.cleared with
    phase := .gathering, snapshot := some join1, total := some 2
    map := (Vector.replicate 65 none).setIfInBounds 1 (some (.record record3)) }

/-- Station 1 at the end of a transfer frame. -/
def hearingTransfer (s : State) (t : TransferFrame) : State :=
  atItemEnd s (bitsOfBytes (encodeFrame s.profile (.transfer t))) false

theorem transfer0_is_stored (es : List RosterEntry) : StoresTransfer (hearingTransfer gathering (transfer0 es)) join1 (transfer0 es) := by
  refine ⟨rfl, rfl, rfl, ?_, ?_⟩
  · intro n hn
    exact (Option.some.inj hn).symm
  · intro r hr
    obtain rfl : r = rosterItem es := by simpa [transfer0, TransferFrame.sealed] using hr
    rfl

theorem transfer0_completes (es : List RosterEntry) :
    CompletesMap (hearingTransfer gathering (transfer0 es)) (transfer0 es) (rosterItem es) [record3] := by
  refine ⟨rfl, (by decide : 2 ≤ 65), rfl, ?_⟩
  intro i hi
  obtain rfl : i = 0 := by simpa using hi
  rfl

/-- A transfer frame heard by a MEMBER, and a donor's own, heard valid. -/
theorem transfers_heard :
    (let s := hearingTransfer member transfer1
     Delivers s (.transfer transfer1) ∧ transfer1.sender ≠ s.number ∧ s.xfu.phase ≠ .gathering)
      ∧ (let f := TransferFrame.sealed (profileOf ⟨3, 0, 2⟩) { transfer1 with sender := 1, joiner := 2 }
         let s := hearingOwn member (.transfer f) (bitsOfBytes (encodeFrame member.profile (.transfer f)))
         DeliversOwn s (.transfer f) (.transfer f) ∧ f.sender = s.number) :=
  ⟨by unfold Delivers; decide +kernel, by unfold DeliversOwn; decide +kernel⟩

/-- A frame for another JOIN; one that leaves item 0 wanted; the last one of an image with the own entry JOINING, with it
NONE, and of no image, with two entries JOINING. -/
theorem witness_TransferFrameIsStoredByItsJoiner :
    (let s := hearingTransfer (gathering.setXfu { gathering.xfu with snapshot := some ⟨⟨3, 1⟩, 8⟩ }) transfer1
     Delivers s (.transfer transfer1) ∧ transfer1.sender ≠ s.number ∧ s.stc.station = .loading ∧ s.xfu.phase = .gathering
       ∧ ∀ snap, ¬ StoresTransfer s snap transfer1)
      ∧ (let s := hearingTransfer (gathering.setXfu { gathering.xfu with total := none }) transfer1
         Delivers s (.transfer transfer1) ∧ StoresTransfer s join1 transfer1 ∧ 0 < transfer1.total
           ∧ filledSlot s transfer1 0 = none)
      ∧ (∀ es ∈ [[.member 5, .joining 4 0, .vacant], [.member 5, .vacant, .vacant], [.joining 4 0, .joining 4 0, .vacant]],
          let s := hearingTransfer gathering (transfer0 es)
          Delivers s (.transfer (transfer0 es)) ∧ StoresTransfer s join1 (transfer0 es)
            ∧ CompletesMap s (transfer0 es) (rosterItem es) [record3])
      ∧ (ImageForm (rosterItem [.member 5, .joining 4 0, .vacant]) [record3]
          ∧ ((rosterOf [.member 5, .joining 4 0, .vacant])[gathering.number]?.getD .vacant).isJoining = true)
      ∧ (ImageForm (rosterItem [.member 5, .vacant, .vacant]) [record3]
          ∧ ((rosterOf [.member 5, .vacant, .vacant])[gathering.number]?.getD .vacant).isJoining = false)
      ∧ ¬ ImageForm (rosterItem [.joining 4 0, .joining 4 0, .vacant]) [record3] := by
  refine ⟨⟨by unfold Delivers; decide +kernel, by decide +kernel, rfl, rfl, ?_⟩,
    ⟨by unfold Delivers; decide +kernel, ⟨rfl, rfl, rfl, nofun, ?_⟩, by decide +kernel, by decide +kernel⟩, ?_,
    ⟨by unfold ImageForm exclusiveAlone; decide +kernel, by decide +kernel⟩,
    ⟨by unfold ImageForm exclusiveAlone; decide +kernel, by decide +kernel⟩,
    by unfold ImageForm; exact fun h => absurd h.2.2.2.2 (by decide +kernel)⟩
  · intro snap h
    obtain rfl := Option.some.inj h.1
    exact absurd h.2.2.1 (by decide)
  · intro r hr
    simp [transfer1, TransferFrame.sealed] at hr
  · simp only [List.forall_mem_cons, List.not_mem_nil, false_imp_iff, implies_true, and_true]
    exact ⟨⟨by unfold Delivers; decide +kernel, transfer0_is_stored _, transfer0_completes _⟩,
      ⟨by unfold Delivers; decide +kernel, transfer0_is_stored _, transfer0_completes _⟩,
      by unfold Delivers; decide +kernel, transfer0_is_stored _, transfer0_completes _⟩

/-- The own READY pending at a joiner that confirms; a table with its sender JOINING, and one with it MEMBER. -/
theorem witness_CommittedReadyMakesTheJoinerAMember :
    (let p := frame .ready 1 (some ⟨⟨4, 0⟩, 7⟩) (some 3) []
     let g := joinOf2 (some p.ref)
     let s := hearing (((base .loading).setXfu { Xfu.cleared with phase := .confirming }).setTbu
       (pairTable.setEntry 1 (.joining 4 0)) |>.setCmu
         { Cmu.cleared with waiting := some p, ownMark := some ⟨⟨5, 1⟩, .stream .ready, false⟩ }) g
     DeliversStream s g ∧ s.stc.station = .loading ∧ s.xfu.phase = .confirming ∧ Confirms s.cmu p g ∧ p.kind = .ready
       ∧ p.sender = s.number ∧ s.cmu.ownMark = some ⟨⟨p.rotation, p.sender⟩, .stream .ready, false⟩
       ∧ s.rqu.carrier = none ∧ ((boundedTable s p).tbu.entry s.number).isJoining = true)
      ∧ (frame .ready 1 none none []).kind = .ready
      ∧ (let a := (({ pairTable.setEntry 1 (.joining 4 0) with records := [⟨3, [holds 1 .shared], [holds 2 .exclusive]⟩] } : Tbu)).begin
         recordsOrdered a.tbu.records ∧ a.touched = [] ∧ (a.tbu.entry 1).isJoining = true
           ∧ (a.tbu.entry 0).isJoining = false) :=
  ⟨⟨joinOf2_is_due _ _ rfl (by unfold Delivers; decide +kernel), by unfold Confirms; decide +kernel⟩, rfl,
    by unfold recordsOrdered; decide +kernel⟩

/-- A joiner that replays one entry, with its stream state. -/
def replaying (e : CatchEntry) (c : Cmu) : State :=
  ((base .loading).setXfu { Xfu.cleared with phase := .replaying, catchup := [e] }).setCmu c

/-- A joiner that confirms, with its stream state. -/
def confirming (c : Cmu) : State := (attempting .loading .confirming none).setCmu c

/-- The entry is handed in replay. -/
theorem hands_replay (g : StreamFrame) (own : Bool) (c : Cmu) :
    Hands (replaying (.frame g own) c) ((replaying (.frame g own) c).setXfu { Xfu.cleared with phase := .replaying })
      .replayEntry g own :=
  ⟨rfl, .inl ⟨rfl, rfl, rfl, [], rfl, rfl⟩⟩

/-- The stream state with the own READY pending and marked. -/
def readySent : Cmu :=
  let p := frame .ready 1 none none []
  { Cmu.cleared with waiting := some p, ownMark := some ⟨p.id, .stream .ready, false⟩ }

/-- The last entry of the queue, a hole, another station's and the own; and a frame that denies P. In CONFIRMING: a fault, and
a frame. A frame that commits P, with the own entry JOINING and NONE; a discordant frame, the first and of a second sender;
and an unknown echo with a hole pending. -/
theorem witness_ReplayResolvesTheOldestEntry :
    (let s := (base .loading).setXfu { Xfu.cleared with phase := .replaying, catchup := [.hole none] }
     s.pins.resetLow = false ∧ s.stc.station = .loading ∧ s.xfu.phase = .replaying ∧ s.xfu.catchup = .hole none :: [])
      ∧ (let s := (base .loading).setXfu { Xfu.cleared with phase := .replaying, catchup := [.frame (joinOf2 none) false] }
         s.xfu.catchup = .frame (joinOf2 none) false :: [] ∧ s.cmu.ownMark = none
           ∧ Denies s.cmu (joinOf2 none))
      ∧ (∃ v, HandsHole (replaying (.hole (some (sentItem (.stream loading1)))) Cmu.cleared) v .replayEntry
          (some (sentItem (.stream loading1))))
      ∧ (∃ v, HandsHole (atItemEnd (confirming readySent) [] false) v .itemDelivery none)
      ∧ (let g := joinOf2 none
         ∃ v, Hands (hearing (confirming readySent) g) v .itemDelivery g false ∧ Denies v.cmu g ∧ g.kind ≠ .found
           ∧ ∀ m, v.cmu.ownMark = some m → m.kind ≠ .stream .found ∧ v.rqu.carrier ≠ some m.id)
      ∧ (∀ t ∈ [(pairTable.setEntry 1 (.joining 4 0), true), (pairTable.setEntry 1 .vacant, false)],
          let g := joinOf2 (some pending0.ref)
          let v := ((replaying (.frame g false) { Cmu.cleared with waiting := some pending0 }).setTbu t.1).setXfu
            { Xfu.cleared with phase := .replaying }
          Hands ((replaying (.frame g false) { Cmu.cleared with waiting := some pending0 }).setTbu t.1) v .replayEntry g false
            ∧ Confirms v.cmu pending0 g ∧ v.cmu.ownMark = none ∧ pending0.sender ≠ v.number
            ∧ ((application v pending0).tbu.entry v.number).isJoining = t.2 ∧ (donorAfter v pending0 v.xfu).image = none)
      ∧ (∀ c ∈ [Cmu.cleared, { Cmu.cleared with discordance := 1, discordSender := some 0 },
            { Cmu.cleared with holes := 1 }],
          ∃ v, Hands (replaying (.frame strange false) c) v .replayEntry strange false ∧ NamesUnknown v.cmu strange
            ∧ v.cmu = c ∧ v.xfu.image = none) := by
  refine ⟨by decide +kernel, ⟨rfl, rfl, (fun _ h => nomatch h), rfl, .inl rfl⟩,
    ⟨_, rfl, .inl ⟨rfl, rfl, rfl, [], rfl, rfl⟩⟩,
    ⟨_, rfl, .inr ⟨rfl, rfl, none, .fault, faultDue (by unfold Delivers; decide +kernel), rfl, rfl⟩⟩,
    ⟨_, ⟨rfl, .inr ⟨rfl, rfl, joinOf2_is_due _ _ rfl (by unfold Delivers; decide +kernel), rfl, rfl⟩⟩,
      ⟨(fun _ _ h => nomatch h), rfl, .inl rfl⟩, by decide, ?_⟩, ?_, ?_⟩
  · intro m hm
    obtain rfl := Option.some.inj hm
    exact ⟨by decide, by decide⟩
  · simp only [List.forall_mem_cons, List.not_mem_nil, false_imp_iff, implies_true, and_true]
    exact ⟨⟨⟨rfl, .inl ⟨rfl, rfl, rfl, [], rfl, rfl⟩⟩, by unfold Confirms; decide +kernel⟩,
      ⟨rfl, .inl ⟨rfl, rfl, rfl, [], rfl, rfl⟩⟩, by unfold Confirms; decide +kernel⟩
  · intro c hc
    have h0 : c.waiting = none ∧ c.last = none := by
      simp only [List.mem_cons, List.not_mem_nil, or_false] at hc
      rcases hc with rfl | rfl | rfl <;> exact ⟨rfl, rfl⟩
    have hn : NamesUnknown c strange :=
      ⟨(fun _ hp => nomatch h0.1.symm.trans hp), (fun h => nomatch h.trans h0.2)⟩
    exact ⟨_, hands_replay strange false c, hn, rfl, rfl⟩

/-- Both phases, with the flag set and clear. -/
theorem witness_StalledJoinFails :
    ∀ p ∈ [JoinPhase.awaiting, .gathering], ∀ aligned ∈ [true, false],
      let s := ((base .joining).setTrk { member.trk with aligned := aligned }).setXfu { Xfu.cleared with phase := p, stall := 3 }
      s.pins.resetLow = false ∧ (s.xfu.phase = .awaiting ∨ s.xfu.phase = .gathering) ∧ s.xfu.stall = 3
        ∧ s.trk.aligned = aligned := by
  decide +kernel

/-- The table of the acquire clauses: resource 3 held SHARED, 4 held EXCLUSIVE with a waiter. -/
def acquired (count free inUse : Nat) : App :=
  ({ Tbu.cleared with
    records := [⟨3, [holds 0 .shared], []⟩, ⟨4, [holds 0 .exclusive], [holds 2 .shared]⟩]
    inUse := inUse, free := free, counts := (Vector.replicate 16 0).setIfInBounds 1 count } : Tbu).begin

/-- Each of the eight cases, with the counts at their limits: 32 and 31 claims of a station, 0 and 1 free, 64 and 63
records. -/
theorem witness_AcquireTakesTheFirstMatchingCase :
    (acquire500.kind = .acquire ∧ acquire500.mode = some .exclusive)
      ∧ ((acquired 0 9 2).tbu.held 0 3).isSome = true
      ∧ (((acquired 0 9 2).tbu.held 2 4).isSome = false ∧ ((acquired 0 9 2).tbu.waitsOn 2 4).isSome = true)
      ∧ (((acquired 32 9 2).tbu.held 1 500).isSome = false ∧ ((acquired 32 9 2).tbu.waitsOn 1 500).isSome = false
          ∧ 32 ≤ (acquired 32 9 2).tbu.count 1)
      ∧ ((acquired 31 0 2).tbu.count 1 < 32 ∧ (acquired 31 0 2).tbu.free = 0)
      ∧ ((acquired 31 1 64).tbu.find 500 = none ∧ (acquired 31 1 64).tbu.count 1 < 32 ∧ (acquired 31 1 64).tbu.free ≠ 0
          ∧ 64 ≤ (acquired 31 1 64).tbu.inUse)
      ∧ ((acquired 31 1 63).tbu.find 500 = none ∧ (acquired 31 1 63).tbu.inUse < 64)
      ∧ ((acquired 31 1 64).tbu.find 3 = some ⟨3, [holds 0 .shared], []⟩
          ∧ ∀ c ∈ [holds 0 .shared], c.mode ≠ .exclusive)
      ∧ ((acquired 31 1 64).tbu.find 4 = some ⟨4, [holds 0 .exclusive], [holds 2 .shared]⟩) := by
  decide +kernel

/-- An ordered table with a record of two holders and a waiter, and resource numbers that nobody holds. -/
theorem witness_ReleaseAndWithdrawRemoveTheClaim :
    let a := (({ Tbu.cleared with records := [⟨3, [holds 0 .shared, holds 1 .shared], [holds 2 .exclusive]⟩] } : Tbu)).begin
    recordsOrdered a.tbu.records
      ∧ a.tbu.held 0 500 = none ∧ a.tbu.waitsOn 0 500 = none
      ∧ (a.tbu.find 3).bind (fun x => x.holding 0) = some (holds 0 .shared)
      ∧ (a.tbu.find 3).bind (fun x => x.waitingOf 2) = some (holds 2 .exclusive) := by
  unfold recordsOrdered
  decide +kernel

theorem witness_RenewReplacesTheLease :
    (acquired 0 9 2).tbu.held 1 3 = none
      ∧ (acquired 0 9 2).tbu.find 3 = some ⟨3, [] ++ holds 0 .shared :: [], []⟩ ∧ (holds 0 .shared).station = 0 := by
  decide +kernel

theorem witness_DowngradeSharesTheClaim :
    recordsOrdered (acquired 0 9 2).tbu.records
      ∧ (acquired 0 9 2).tbu.held 1 3 = none
      ∧ ((acquired 0 9 2).tbu.held 0 3 = some (holds 0 .shared) ∧ (holds 0 .shared).mode = .shared)
      ∧ ((acquired 0 9 2).tbu.find 4 = some ⟨4, [holds 0 .exclusive], [holds 2 .shared]⟩
          ∧ (holds 0 .exclusive).mode = .exclusive) := by
  unfold recordsOrdered
  decide +kernel

/-- A record in which a pass grants one waiter and stops at the next. -/
theorem witness_GrantPassGrantsTheCompatibleHeads :
    (⟨320, [], [⟨5, .shared, 1, 20, none⟩, ⟨7, .exclusive, 3, 10, some 1004⟩]⟩ : ResRecord).grants 1000
      = [⟨5, .shared, 1, 20, some 1020⟩] := by
  decide +kernel

/-- A table with no boundary applied; a FOUND, a frame of the last applied rotation itself, and one of the next rotation
across the wrap of 2^32. -/
theorem witness_BoundariesRunThroughTheFramesRotation :
    Tbu.cleared.lastApplied = none ∧ let t : Tbu := { pairTable with lastApplied := some 0xFFFFFFFF }
    t.lastApplied = some 0xFFFFFFFF ∧ found1.kind = .found ∧ later 0xFFFFFFFF 0xFFFFFFFF = false
      ∧ (pending0.kind ≠ .found
          ∧ ({ pending0 with rotation := 0 } : StreamFrame).rotation = (0xFFFFFFFF : Word32) + BitVec.ofNat 32 1) := by
  decide +kernel

/-- A table with a joiner of rotation 4 whose donor is station 0. -/
def serving : Tbu := pairTable.setEntry 2 (.joining 4 0)

/-- It has one joiner, and it names station 0. -/
theorem serving_joins : OneJoiner serving ∧ ∀ k start, serving.entry k ≠ .joining start 1 := by
  have h : ∀ k, (serving.entry k).isJoining = true → k = 2 := by
    intro k hk
    by_cases hl : k < 16
    · have all : ∀ i < 16, (serving.entry i).isJoining = true → i = 2 := by decide +kernel
      exact all k hl hk
    · rw [Tbu.entry_beyond _ (by omega)] at hk; cases hk
  refine ⟨fun j k hj hk => (h j hj).trans (h k hk).symm, ?_⟩
  intro k start e
  obtain rfl := h k (by rw [e]; rfl)
  rw [show serving.entry 2 = .joining 4 0 from rfl] at e
  cases e

/-- No joiner; a joiner of rotation 4 at the boundaries of 12 and 13; stations 0 and 1, last seen in 5, with M = 2 at the
boundaries of 7 and 8, the one with a joiner to serve and the other without. -/
theorem witness_ExpiredClaimsEndAtTheBoundary :
    (∀ k < 16, (pairTable.entry k).isJoining = false)
      ∧ (OneJoiner serving ∧ serving.entry 2 = .joining 4 0
          ∧ ¬ (1 ≤ ((12 : Word32) - (4 + 8)).toNat ∧ ((12 : Word32) - (4 + 8)).toNat < 2 ^ 31)
          ∧ (1 ≤ ((13 : Word32) - (4 + 8)).toNat ∧ ((13 : Word32) - (4 + 8)).toNat < 2 ^ 31))
      ∧ (serving.entry 2).isMember = false
      ∧ (serving.entry 0 = .member 5 ∧ ((5 : Word32) + BitVec.ofNat 32 2 - 7).toNat < 2 ^ 31
          ∧ 2 ^ 31 ≤ ((5 : Word32) + BitVec.ofNat 32 2 - 8).toNat)
      ∧ (serving.entry 1 = .member 5 ∧ ∀ k start, serving.entry k ≠ .joining start 1) :=
  ⟨by decide +kernel, ⟨serving_joins.1, rfl, by decide, by decide⟩, rfl, ⟨rfl, by decide, by decide⟩, rfl, serving_joins.2⟩

/-- The slot held by another station; no MEMBER; and a MEMBER found one and two places on, the latter past the wrap. Frames
of the kinds, and a LEAVE of the donor, of a MEMBER that serves nobody, and of a station that is no MEMBER. -/
theorem witness_CommittedJoinNamesTheNextMember :
    ((pairTable.setEntry 2 (.joining 5 0)).entry 2).isJoining = true
      ∧ (∀ k < 3, k ≠ 2 → (Tbu.cleared.entry k).isMember = false)
      ∧ (pairTable.entry ((2 + 1) % 3)).isMember = true
      ∧ ((pairTable.setEntry 0 .vacant).entry ((2 + 2) % 3)).isMember = true
      ∧ ((pairTable.setEntry 0 .vacant).entry ((2 + 1) % 3)).isMember = false
      ∧ ((joinOf2 none).kind = .join ∧ loading1.kind = .loading ∧ leave1.kind = .leave)
      ∧ ((serving.entry 0).isMember = true ∧ OneJoiner serving ∧ serving.entry 2 = .joining 4 0)
      ∧ ((serving.entry leave1.sender).isMember = true ∧ ∀ k start, serving.entry k ≠ .joining start leave1.sender)
      ∧ (serving.entry 2).isMember = false :=
  ⟨rfl, by decide +kernel, rfl, rfl, rfl, ⟨rfl, rfl, rfl⟩, ⟨rfl, serving_joins.1, rfl⟩, ⟨rfl, serving_joins.2⟩, rfl⟩

theorem cleared_entry (k : Nat) : Tbu.cleared.entry k = .vacant := by
  simp only [Tbu.entry, Tbu.cleared, Vector.getElem?_replicate]
  split <;> rfl

theorem witness_slot_is_free_or_held :
    OneJoiner Tbu.cleared ∧ ∀ k, (Tbu.cleared.entry k).isJoining = false :=
  ⟨fun j k h => by simp [cleared_entry, RosterEntry.isJoining] at h, fun k => by simp [cleared_entry, RosterEntry.isJoining]⟩

theorem queued4_waits (x : ResRecord) (hx : x ∈ [(⟨4, [holds 0 .exclusive], [holds 1 .shared]⟩ : ResRecord)]) :
    headWaits x := by
  obtain rfl : x = ⟨4, [holds 0 .exclusive], [holds 1 .shared]⟩ := by simpa using hx
  intro w ws h
  obtain ⟨rfl, rfl⟩ : holds 1 .shared = w ∧ [] = ws := by simpa using h
  decide

/-- A table with a record and a frame in range for it; an image of that record. -/
theorem witness_ApplicationKeepsTheTableSound :
    (3 ≤ 16 ∧ own1.wf 3 = true
      ∧ TableSound { pairTable with
          records := [⟨4, [holds 0 .exclusive], [holds 1 .shared]⟩], inUse := 1, free := 126
          counts := (Vector.replicate 16 0).setIfInBounds 0 1 |>.setIfInBounds 1 1 })
      ∧ (let recs : List ResRecord := [⟨4, [holds 0 .exclusive], [holds 1 .shared]⟩]
         recs.length ≤ 64 ∧ (∀ x ∈ recs, x.wf 3 = true) ∧ ImageForm (rosterItem [.member 5, .joining 4 0, .vacant]) recs
           ∧ ∀ x ∈ recs, headWaits x) := by
  refine ⟨⟨by decide, by decide +kernel, by unfold recordsOrdered; decide +kernel, ?_, by unfold CountsSound; decide +kernel⟩,
    by decide, by decide +kernel, by unfold ImageForm exclusiveAlone; decide +kernel, queued4_waits⟩
  intro r hr
  have hw := queued4_waits r hr
  obtain rfl : r = ⟨4, [holds 0 .exclusive], [holds 1 .shared]⟩ := by simpa using hr
  exact ⟨by decide, by unfold exclusiveAlone; decide, hw, by unfold oneClaimEach; decide⟩

theorem witness_ApplicationKeepsOneJoiner :
    ((joinOf2 none).sender < 3 ∧ 3 ≤ 16 ∧ OneJoiner Tbu.cleared)
      ∧ ImageForm (rosterItem [.member 5, .joining 4 0, .vacant]) [record3] :=
  ⟨⟨by decide, by decide, witness_slot_is_free_or_held.1⟩, by unfold ImageForm exclusiveAlone; decide +kernel⟩

theorem cleared_slot (i : Nat) : Xfu.cleared.slot i = none := by
  simp only [Xfu.slot, Xfu.cleared, Vector.getElem?_replicate]
  split <;> rfl

/-- An aligned LISTENING station that has no history. -/
theorem listening_is_sound : StationSound (base .listening) where
  queue := by unfold QueueSound; decide
  tracker := ⟨by decide, fun k h => by cases h; decide⟩
  commit := by unfold CommitSound; decide
  transfer := by unfold TransferSound; decide
  leave := by unfold LeaveSound; decide
  item := by unfold ItemSound; decide
  phase := by unfold PhaseAgrees; decide
  history := fun _ => ⟨rfl, rfl⟩
  donor := by unfold DonorAgrees; decide
  entry := nofun
  halted := ⟨by decide, nofun⟩
  found := ⟨nofun, nofun, nofun⟩
  joiner := fun _ => rfl
  config := by unfold ConfigAgrees; decide
  frames := ⟨nofun, nofun, fun i it h => nomatch (cleared_slot i).symm.trans h⟩
  table := ⟨⟨.nil, nofun⟩, nofun, by unfold CountsSound; decide +kernel⟩
  roster := witness_slot_is_free_or_held.1

/-- A sound station and its step; its head waiters, and those of the record items on the line, are not grantable. -/
theorem witness_EveryStepKeepsTheStationSound :
    (StationSound (base .listening) ∧ step (base .listening) = .next (base .listening).idle)
      ∧ HeadsWait (base .listening)
      ∧ ∀ f, (base .listening).heard = .transfer f → ∀ x, .record x ∈ f.items → headWaits x :=
  ⟨⟨listening_is_sound, rfl⟩, ⟨nofun, fun i _ h => nomatch (cleared_slot i).symm.trans h⟩,
    fun _ h => nomatch (by decide +kernel : (base .listening).heard = .fault).symm.trans h⟩

end Sys2Proof.Tests
end

section
/-! PROOFS. The claim a station holds: how a lookup finds it, what a change in place does to it and leaves as it is, and
RENEW, which is such a change (R2, R34, R35). -/

namespace Sys2Proof.Machine

/-! ### Expiries and refusals -/

/-- The expiry of R34, with the rotation's sum written on the words. -/
theorem leaseExpiry_eq (r : Word32) (lease : Word16) :
    leaseExpiry r lease = if lease = 0 then none else some (r + lease.setWidth 32) := by
  rw [leaseExpiry, rotPlus, BitVec.ofNat_toNat]

/-- A refusal of an operation other than ACQUIRE shows no mode (R43). -/
theorem App.refuse_of_not_acquire (a : App) (s : Nat) (r : Word32) {q : Request} (why : RefusalReason)
    (h : q.kind ≠ .acquire) :
    a.refuse s r q why = { a with out := a.out ++ [opNote .refused s r q none (.reason why)] } := by
  rw [App.refuse, if_neg h, App.say]

/-! ### The one holder of a station (R2) -/

/-- A station's holding claim is its first one in the holder list. -/
theorem ResRecord.holding_eq_some {x : ResRecord} {s : Nat} {before after : List Claim} {c : Claim}
    (split : x.holders = before ++ c :: after) (own : c.station = s) (others : ∀ d ∈ before, d.station ≠ s) :
    x.holding s = some c := by
  have skipped : before.find? (fun d => d.station == s) = none :=
    List.find?_eq_none.mpr fun d hd => by simpa using others d hd
  rw [ResRecord.holding, split, List.find?_append, skipped, Option.none_or,
    List.find?_cons_of_pos (by simpa using own)]

/-- A change of a station's claim leaves a list of other stations' claims as it is. -/
theorem changeClaims_of_others {l : List Claim} {s : Nat} (f : Claim → Claim) (others : ∀ d ∈ l, d.station ≠ s) :
    l.map (fun c => if c.station = s then f c else c) = l :=
  (List.map_congr_left fun d hd => if_neg (others d hd)).trans (List.map_id l)

/-- A change of a station's only holding claim keeps the claim's place and every other claim. -/
theorem ResRecord.changeHolder_eq {x : ResRecord} {s : Nat} {before after : List Claim} {c : Claim} (f : Claim → Claim)
    (split : x.holders = before ++ c :: after) (own : c.station = s) (others : ∀ d ∈ before ++ after, d.station ≠ s) :
    x.changeHolder s f = { x with holders := before ++ f c :: after } := by
  obtain ⟨earlier, later⟩ := List.forall_mem_append.mp others
  rw [ResRecord.changeHolder, split, List.map_append, List.map_cons, if_pos own, changeClaims_of_others f earlier,
    changeClaims_of_others f later]

/-- The held claim of a station on a resource is the one its record shows. -/
theorem Tbu.held_of_find {t : Tbu} {y : Word16} {x : ResRecord} (s : Nat) (h : t.find y = some x) :
    t.held s y = x.holding s := by
  rw [Tbu.held, h, Option.bind_some]

/-- A lookup after a change of a held claim: only the claim's own record is changed. -/
theorem App.find_changeHeld (a : App) (y : Word16) (s : Nat) (f : Claim → Claim) (z : Word16) :
    (a.changeHeld y s f).tbu.find z = if z = y then (a.tbu.find z).map (ResRecord.changeHolder s f) else a.tbu.find z :=
  find_modifyRecord a.tbu.records y z _ fun _ => rfl

/-! ### RENEW (R34, R35) -/

/-- RENEW without a held claim is a refusal (R35). -/
theorem App.renew_of_not_held {a : App} {s : Nat} {q : Request} (r : Word32) (h : a.tbu.held s q.resource = none) :
    a.renew s r q = a.refuse s r q .notHeld := by
  rw [App.renew, h]

/-- RENEW of a held claim changes that claim and says RENEWED (R34). -/
theorem App.renew_of_held {a : App} {s : Nat} {q : Request} {c : Claim} (r : Word32)
    (h : a.tbu.held s q.resource = some c) :
    a.renew s r q = (a.changeHeld q.resource s (Claim.renewed r q.lease)).say
      (opNote .renewed s r q (some c.mode) (.expiry (leaseExpiry r q.lease))) := by
  rw [App.renew, h]

/-- Settles O51: the station's claim is found by its split of the holder list, RENEW is a change of that claim in place,
and a lookup of another record does not see the change. -/
theorem renewReplacesTheLease : Obligations.RenewReplacesTheLease := by
  intro a s r q
  simp only [← leaseExpiry_eq]
  refine ⟨fun notHeld isRenew => ?_, fun x before after c found split own others => ?_⟩
  · rw [App.renew_of_not_held r notHeld, App.refuse_of_not_acquire a s r _ (by simp [isRenew])]
  · have held : a.tbu.held s q.resource = some c :=
      (Tbu.held_of_find s found).trans
        (ResRecord.holding_eq_some split own (List.forall_mem_append.mp others).1)
    rw [App.renew_of_held r held]
    refine ⟨rfl, ?_, fun z other => ?_, rfl, rfl⟩
    · calc (a.changeHeld q.resource s (Claim.renewed r q.lease)).tbu.find q.resource
          = some (x.changeHolder s (Claim.renewed r q.lease)) := by
            rw [App.find_changeHeld, if_pos rfl, found, Option.map_some]
        _ = some { x with holders := before ++ Claim.renewed r q.lease c :: after } := by
            rw [ResRecord.changeHolder_eq _ split own others]
    · exact (App.find_changeHeld a q.resource s _ z).trans (if_neg other)

end Sys2Proof.Machine
end

section
/-! PROOFS. The Notification Queue: what an offer, POP, CLEAR LOST and the resets make of it, how every command moves it,
and the interrupt line that shows it (R176 to R179). -/

namespace Sys2Proof.Machine

/-! ### Commands with RESET released -/

section
variable {s : State} (released : s.pins.resetLow = false)
include released

theorem exec_pop_of_released : exec .pop s = .next s.hostPop :=
  congrArg Host.Outcome.next (State.unlessHeld_released _ released)

theorem exec_clearLost_of_released : exec .clearLost s = .next s.hostClearLost :=
  congrArg Host.Outcome.next (State.unlessHeld_released _ released)

theorem exec_portReset_of_released : exec .portReset s = .next s.hostPortReset :=
  congrArg Host.Outcome.next (State.unlessHeld_released _ released)

theorem exec_irqenWrite_of_released (w : Word16) : exec (.irqenWrite w) s = .next (s.writeIrqEn w) :=
  congrArg Host.Outcome.next (State.unlessHeld_released _ released)

end

/-! ### The queue after each operation -/

@[simp] theorem State.enableFromHalted_ntq (s : State) :
    s.enableFromHalted.ntq = s.ntq.offer (stateNote .listening .enabled none s.trk.rotation) := rfl

@[simp] theorem State.enableFromDetached_ntq (s : State) :
    s.enableFromDetached.ntq = s.ntq.offer (stateNote .listening .enabled none s.trk.rotation) := rfl

@[simp] theorem State.disableTaken_ntq (s : State) :
    s.disableTaken.ntq = (((s.rqu.inflight ++ s.rqu.outgoing).map (requestNote .aborted s.trk.rotation)).foldl
      Ntq.offer s.ntq).offer (stateNote .halted .halted none s.trk.rotation) := by
  simp [State.disableTaken]

@[simp] theorem State.hostPortReset_ntq (s : State) : s.hostPortReset.ntq = Ntq.cleared := rfl

@[simp] theorem State.pinResetLow_ntq (s : State) (sn : BitVec 4) : (s.pinResetLow sn).ntq = Ntq.cleared := rfl

@[simp] theorem State.hostClearLost_ntq (s : State) :
    s.hostClearLost.ntq = { s.ntq with lost := 0, overflow := false } := rfl

/-- POP of an empty queue (R177). -/
theorem State.hostPop_of_empty {s : State} (h : s.ntq.queue = []) : s.hostPop = s.answer 7 .empty := by
  rw [State.hostPop, h]

/-- POP takes the record at the head of the queue (R177). -/
theorem State.hostPop_of_cons {s : State} {n : Note} {rest : List Note} (h : s.ntq.queue = n :: rest) :
    s.hostPop = (s.setNtq { s.ntq with queue := rest, head := some n }).answer 7 .ok := by
  rw [State.hostPop, h]

/-! ### How a command moves the queue (R176) -/

/-- The queue moves by offers alone or, where `mayRemove` holds, keeps a tail of its records. -/
def MovesQueue (mayRemove : Prop) (q q' : Ntq) : Prop :=
  (∃ ns : List Note, q' = ns.foldl Ntq.offer q) ∨ (mayRemove ∧ q'.queue <:+ q.queue)

section
variable {mayRemove : Prop} {q q' : Ntq}

theorem MovesQueue.refl (q : Ntq) : MovesQueue mayRemove q q := .inl ⟨[], rfl⟩

theorem MovesQueue.offer (q : Ntq) (n : Note) : MovesQueue mayRemove q (q.offer n) := .inl ⟨[n], rfl⟩

theorem MovesQueue.offers_offer (q : Ntq) (ns : List Note) (n : Note) :
    MovesQueue mayRemove q ((ns.foldl Ntq.offer q).offer n) :=
  .inl ⟨ns ++ [n], by rw [List.foldl_append]; rfl⟩

theorem MovesQueue.cleared (may : mayRemove) : MovesQueue mayRemove q Ntq.cleared := .inr ⟨may, List.nil_suffix⟩

theorem MovesQueue.mono {mayRemove' : Prop} (m : MovesQueue mayRemove q q') (imp : mayRemove → mayRemove') :
    MovesQueue mayRemove' q q' :=
  m.imp_right (And.imp_left imp)

/-- Without a removal only offers are left. -/
theorem MovesQueue.only_offers (m : MovesQueue mayRemove q q') (no : ¬ mayRemove) :
    ∃ ns : List Note, q' = ns.foldl Ntq.offer q :=
  m.resolve_right fun ⟨may, _⟩ => no may

/-- Neither an offer nor a removal takes the queue beyond its 64 places. -/
theorem MovesQueue.length_le (m : MovesQueue mayRemove q q') (h : q.queue.length ≤ 64) : q'.queue.length ≤ 64 := by
  rcases m with ⟨ns, rfl⟩ | ⟨-, tail⟩
  · exact Ntq.offerAll_length ns h
  · exact tail.length_le.trans h

/-- A command held off by RESET, or taken. -/
theorem MovesQueue.unlessHeld {s t : State} (m : MovesQueue mayRemove s.ntq t.ntq) :
    MovesQueue mayRemove s.ntq (s.unlessHeld t).ntq := by
  unfold State.unlessHeld; split
  · exact MovesQueue.refl _
  · exact m

/-- An event inside the part only offers. -/
theorem Inside.movesQueue {s t : State} (h : Inside s t) : MovesQueue mayRemove s.ntq t.ntq := .inl h.ntq

end

section
variable {mayRemove : Prop} (s : State)

theorem MovesQueue.hostEnable : MovesQueue mayRemove s.ntq s.hostEnable.ntq := by
  unfold State.hostEnable; split
  case h_1 =>
    split
    · exact MovesQueue.offer _ _
    · exact MovesQueue.refl _
  case h_2 => exact MovesQueue.offer _ _
  all_goals exact MovesQueue.refl _

theorem MovesQueue.hostLeave : MovesQueue mayRemove s.ntq s.hostLeave.ntq := by
  unfold State.hostLeave; split
  · exact MovesQueue.offers_offer _ _ _
  · exact MovesQueue.refl _

theorem MovesQueue.hostDisable : MovesQueue mayRemove s.ntq s.hostDisable.ntq := by
  unfold State.hostDisable; split
  · exact MovesQueue.refl _
  · rw [State.answer_ntq, State.disableTaken_ntq]
    exact MovesQueue.offers_offer _ _ _

theorem MovesQueue.hostPost : MovesQueue mayRemove s.ntq s.hostPost.ntq := by
  unfold State.hostPost; split <;> exact MovesQueue.refl _

theorem MovesQueue.hostCancel : MovesQueue mayRemove s.ntq s.hostCancel.ntq := by
  simp only [State.hostCancel]; split
  · exact MovesQueue.offer _ _
  · split <;> exact MovesQueue.refl _

theorem MovesQueue.hostPop (may : mayRemove) : MovesQueue mayRemove s.ntq s.hostPop.ntq := by
  cases h : s.ntq.queue with
  | nil => rw [State.hostPop_of_empty h]; exact MovesQueue.refl _
  | cons n rest =>
    rw [State.hostPop_of_cons h]
    exact .inr ⟨may, by simp [h]⟩

theorem MovesQueue.hostClearLost (may : mayRemove) : MovesQueue mayRemove s.ntq s.hostClearLost.ntq :=
  .inr ⟨may, List.suffix_rfl⟩

theorem MovesQueue.hostInquire : MovesQueue mayRemove s.ntq s.hostInquire.ntq := by
  unfold State.hostInquire; split
  · split <;> exact MovesQueue.refl _
  · exact MovesQueue.refl _

/-- A write to CMD removes records only by a code that names a command (R183). -/
theorem MovesQueue.hostCommand (code : Word16) :
    MovesQueue (isCommandCode code = true) s.ntq (s.hostCommand code).ntq := by
  unfold State.hostCommand
  split_ifs with enable leave disable reset post cancel pop clear inquire
  · exact MovesQueue.hostEnable s
  · exact MovesQueue.hostLeave s
  · exact MovesQueue.hostDisable s
  · exact MovesQueue.cleared (by rw [reset]; decide)
  · exact MovesQueue.hostPost s
  · exact MovesQueue.hostCancel s
  · exact MovesQueue.hostPop s (by rw [pop]; decide)
  · exact MovesQueue.hostClearLost s (by rw [clear]; decide)
  · exact MovesQueue.hostInquire s
  · exact MovesQueue.refl _

theorem MovesQueue.writeConfig (w : Word16) : MovesQueue mayRemove s.ntq (s.writeConfig w).ntq := by
  unfold State.writeConfig; split <;> exact MovesQueue.refl _

/-- A write cycle removes records only at an address with a row of its own, which is CMD's (R180). -/
theorem MovesQueue.busWrite (a : BitVec 5) (w : Word16) :
    MovesQueue (hasOwnWriteRow a = true) s.ntq (s.busWrite a w).ntq := by
  unfold State.busWrite
  split_ifs with config irqen cmd
  · exact MovesQueue.writeConfig s w
  · exact MovesQueue.refl _
  · have isCmd : a = 0x06#5 := BitVec.eq_of_toNat_eq cmd
    exact (MovesQueue.hostCommand s w).mono fun _ => by rw [isCmd]; decide
  · exact MovesQueue.refl _

end

/-- The commands that may remove records or clear the lost count: POP, CLEAR LOST, the resets, and the ill-formed writes
that stand for one of them. -/
def MayRemove (c : Instr) : Prop :=
  c = .pop ∨ c = .clearLost ∨ c = .portReset ∨ (∃ sn, c = .pinReset sn) ∨ c.wellFormed = false

/-- Every command moves the Notification Queue by offers, or by a removal where it may remove. -/
theorem exec_movesQueue {c : Instr} {s t : State} (h : exec c s = .next t) :
    MovesQueue (MayRemove c) s.ntq t.ntq := by
  cases c with
  | enable => cases h; exact (MovesQueue.hostEnable s).unlessHeld
  | leave => cases h; exact (MovesQueue.hostLeave s).unlessHeld
  | disable => cases h; exact (MovesQueue.hostDisable s).unlessHeld
  | portReset => cases h; exact MovesQueue.unlessHeld (MovesQueue.cleared (.inr (.inr (.inl rfl))))
  | post => cases h; exact (MovesQueue.hostPost s).unlessHeld
  | cancel => cases h; exact (MovesQueue.hostCancel s).unlessHeld
  | pop => cases h; exact (MovesQueue.hostPop s (.inl rfl)).unlessHeld
  | clearLost => cases h; exact (MovesQueue.hostClearLost s (.inr (.inl rfl))).unlessHeld
  | inquire => cases h; exact (MovesQueue.hostInquire s).unlessHeld
  | badCmd code =>
    cases h
    refine ((MovesQueue.hostCommand s code).mono fun isCode => ?_).unlessHeld
    exact .inr (.inr (.inr (.inr (by rw [Instr.wellFormed, isCode]; rfl))))
  | rothiRead => cases h; exact MovesQueue.unlessHeld (MovesQueue.refl _)
  | configWrite w => cases h; exact (MovesQueue.writeConfig s w).unlessHeld
  | irqenWrite w => cases h; exact MovesQueue.unlessHeld (MovesQueue.refl _)
  | registerWrite a w =>
    cases h
    refine ((MovesQueue.busWrite s a w).mono fun own => ?_).unlessHeld
    exact .inr (.inr (.inr (.inr (by rw [Instr.wellFormed, own]; rfl))))
  | pinReset sn => cases h; exact MovesQueue.cleared (.inr (.inr (.inr (.inl ⟨sn, rfl⟩))))
  | activityBegins => exact (Inside.execActivityBegins h).movesQueue
  | itemDelivery => exact (Inside.execItemDelivery h).movesQueue
  | skipPoint => exact (Inside.execSkipPoint h).movesQueue
  | listenWindowExpiry => exact (Inside.execListenWindowExpiry h).movesQueue
  | frameStart => exact (Inside.execFrameStart h).movesQueue
  | transmissionEnd => exact (Inside.execTransmissionEnd h).movesQueue
  | loopbackMismatch => exact (Inside.execLoopbackMismatch h).movesQueue
  | alignmentLoss => exact (Inside.execAlignmentLoss h).movesQueue
  | joinStall => exact (Inside.execJoinStall h).movesQueue
  | replayEntry => exact (Inside.execReplayEntry h).movesQueue
  | activityStops bits => exact (Inside.execActivityStops h).movesQueue
  | resetRelease => cases h; exact MovesQueue.refl _

/-- Settles O6: an offer by its two cases, and every command by `exec_movesQueue`, whose removals are those of the commands
named and of ill-formed writes. -/
theorem recordsEnterByOfferAndLeaveByPopOrReset : Obligations.RecordsEnterByOfferAndLeaveByPopOrReset := by
  refine ⟨fun s n room => ?_, fun s n full => ?_, fun s n m rest released queue full => ?_,
    fun c s t wf notPop notClear notPortReset notPinReset run => ?_,
    fun c s t room run => (exec_movesQueue run).length_le room⟩
  · rw [State.offer, Ntq.offer_room n room]; rfl
  · rw [State.offer, Ntq.offer_full n full]; rfl
  · have offered : (s.offer n).ntq = { s.ntq with lost := min (s.ntq.lost + 1) 65535, overflow := true } :=
      Ntq.offer_full n full.ge
    have room : rest.length < 64 := by rw [queue, List.length_cons] at full; omega
    refine ⟨⟨s.hostPop, exec_pop_of_released released, ?_⟩,
      ⟨(s.offer n).hostPop, exec_pop_of_released released, ?_⟩⟩
    · rw [State.hostPop_of_cons queue, State.offer_ntq, Ntq.offer_room n room]
      exact ⟨rfl, rfl⟩
    · rw [State.hostPop_of_cons (s := s.offer n) (n := m) (rest := rest) (by rw [offered, queue]), State.answer_ntq,
        State.setNtq_ntq, offered]
      exact ⟨rfl, rfl⟩
  · refine (exec_movesQueue run).only_offers ?_
    rintro (isPop | isClear | isPortReset | ⟨sn, isPinReset⟩ | illFormed)
    · exact notPop isPop
    · exact notClear isClear
    · exact notPortReset isPortReset
    · exact notPinReset sn isPinReset
    · exact Bool.noConfusion (wf.symm.trans illFormed)

/-! ### CLEAR LOST (R178) -/

/-- Settles O5: CLEAR LOST leaves the queue itself as full as it was, so that a record offered next is counted from 0, and
one offered before is forgotten. -/
theorem clearLostClearsCountAndFlag : Obligations.ClearLostClearsCountAndFlag := by
  refine fun s released => ⟨exec_clearLost_of_released released, fun n full => ⟨?_, ?_⟩⟩
  · have offered : (s.hostClearLost.offer n).ntq = { s.hostClearLost.ntq with lost := 1, overflow := true } :=
      Ntq.offer_full (q := s.hostClearLost.ntq) n full
    exact ⟨_, exec_clearLost_of_released released, by rw [offered], by rw [offered]⟩
  · exact ⟨_, exec_clearLost_of_released (s := s.offer n) released, rfl, rfl⟩

/-! ### The interrupt line (R179) -/

/-- INT by its two sources, each with its enable (R179). -/
theorem State.intAsserted_iff (s : State) : s.intAsserted = true ↔ s.pins.resetLow = false
    ∧ ((s.ntq.queue ≠ [] ∧ s.lpt.irqNonEmpty = true) ∨ (s.ntq.overflow = true ∧ s.lpt.irqOverflow = true)) := by
  simp [State.intAsserted]

/-- A queue as a reset leaves it asserts nothing. -/
theorem State.intAsserted_of_cleared {s : State} (h : s.ntq = Ntq.cleared) : s.intAsserted = false := by
  simp [State.intAsserted, h, Ntq.cleared]

/-- Settles O7: the line's condition, read after each command on the words and the queue that the command leaves. -/
theorem interruptLineFollowsItsCondition : Obligations.InterruptLineFollowsItsCondition := by
  refine ⟨State.intAsserted_iff, fun s w released => ?_, fun s sn => ?_, fun s released => ?_⟩
  · refine ⟨_, exec_irqenWrite_of_released released w, (State.intAsserted_iff _).trans ?_⟩
    exact and_iff_right released
  · exact ⟨_, _, rfl, rfl, State.intAsserted_of_cleared rfl, State.intAsserted_of_cleared rfl, rfl, rfl⟩
  · exact ⟨_, exec_portReset_of_released released, State.intAsserted_of_cleared rfl, rfl, rfl⟩

end Sys2Proof.Machine
end

section
/-! PROOFS. What every application keeps of the resource table: the form of its records and the truth of its counts (R1 to
R7, R11, R14). -/

namespace Sys2Proof.Machine

/-! ### Claims by their stations -/

/-- The stations of a record's claims, in walk order. -/
def ResRecord.stations (r : ResRecord) : List Nat := r.claims.map (·.station)

/-- The stations of the claims of a list of records, in walk order. -/
def stationsOf (l : List ResRecord) : List Nat := l.flatMap ResRecord.stations

theorem Tbu.claims_map_station (t : Tbu) : t.claims.map (·.station) = stationsOf t.records := List.map_flatMap ..

theorem stationsOf_length (t : Tbu) : (stationsOf t.records).length = t.claims.length := by
  rw [← Tbu.claims_map_station, List.length_map]

theorem countP_station (l : List Claim) (k : Nat) : l.countP (fun c => c.station == k) = (l.map (·.station)).count k := by
  rw [List.count, List.countP_map]; rfl

/-- The counts of a table are about the stations of its claims alone. -/
theorem countsSound_iff (t : Tbu) : CountsSound t ↔
    t.inUse = t.records.length ∧ t.records.length ≤ 64 ∧ t.free + (stationsOf t.records).length = 128
      ∧ (∀ k < 16, t.count k = (stationsOf t.records).count k) ∧ (∀ k < 16, t.count k ≤ 32)
      ∧ ∀ k ∈ stationsOf t.records, k < 16 := by
  unfold CountsSound
  simp only [stationsOf_length, countP_station, Tbu.claims_map_station]
  rw [← Tbu.claims_map_station, List.forall_mem_map]

/-! ### The table during an application -/

/-- The table during an application: the records not touched are as R1 to R4 say, and as R11 says where `w` holds; those
touched may still be bare or have a head waiter that a grant pass would take. -/
structure TableKept (w : Prop) (touched : List Word16) (t : Tbu) : Prop where
  ordered : recordsOrdered t.records
  formed : ∀ r ∈ t.records, exclusiveAlone r ∧ oneClaimEach r
  settled : ∀ r ∈ t.records, r.resource ∉ touched → r.holders ≠ [] ∧ (w → headWaits r)
  counts : CountsSound t

/-- An application under way keeps the table. -/
def App.Kept (w : Prop) (a : App) : Prop := TableKept w a.touched a.tbu

/-- An application with nothing touched keeps the table. -/
def App.Settled (w : Prop) (a : App) : Prop := a.touched = [] ∧ a.Kept w

theorem App.Settled.kept {w : Prop} {a : App} (h : a.Settled w) : TableKept w [] a.tbu := h.1 ▸ h.2

theorem tableSound_iff_kept (t : Tbu) : TableSound t ↔ TableKept True [] t := by
  constructor
  · rintro ⟨ordered, sound, counts⟩
    exact ⟨ordered, fun r hr => ⟨(sound r hr).2.1, (sound r hr).2.2.2⟩,
      fun r hr _ => ⟨(sound r hr).1, fun _ => (sound r hr).2.2.1⟩, counts⟩
  · rintro ⟨ordered, formed, settled, counts⟩
    exact ⟨ordered, fun r hr => ⟨(settled r hr nofun).1, (formed r hr).1, (settled r hr nofun).2 trivial, (formed r hr).2⟩,
      counts⟩

theorem tableFormed_iff_kept (t : Tbu) : TableFormed t ↔ TableKept False [] t := by
  constructor
  · rintro ⟨ordered, sound, counts⟩
    exact ⟨ordered, fun r hr => (sound r hr).2, fun r hr _ => ⟨(sound r hr).1, False.elim⟩, counts⟩
  · rintro ⟨ordered, formed, settled, counts⟩
    exact ⟨ordered, fun r hr => ⟨(settled r hr nofun).1, formed r hr⟩, counts⟩

/-- A table in its form whose head waiters wait. -/
theorem tableKept_iff (w : Prop) (t : Tbu) :
    TableKept w [] t ↔ TableFormed t ∧ (w → ∀ r ∈ t.records, headWaits r) := by
  rw [tableFormed_iff_kept]
  constructor
  · rintro ⟨ordered, formed, settled, counts⟩
    exact ⟨⟨ordered, formed, fun r hr h => ⟨(settled r hr h).1, False.elim⟩, counts⟩,
      fun hw r hr => (settled r hr nofun).2 hw⟩
  · rintro ⟨⟨ordered, formed, settled, counts⟩, waits⟩
    exact ⟨ordered, formed, fun r hr h => ⟨(settled r hr h).1, fun hw => waits hw r hr⟩, counts⟩

/-! ### Removals of claims (R9) -/

section
variable (p : ClaimPick)

/-- A claim is picked from a record, or it stays. -/
theorem ResRecord.stations_without_perm (r : ResRecord) :
    r.stations.Perm ((r.picked p).map (·.2.station) ++ (r.without p).stations) := by
  have split : ∀ (st : ClaimState) (l : List Claim), (l.filter (p r.resource st)
      ++ l.filter (fun c => !p r.resource st c)).Perm l := fun st l => List.filter_append_perm _ l
  have swap := ((split .holding r.holders).append (split .waiting r.waiters)).symm.map (·.station)
  refine swap.trans ?_
  simp only [ResRecord.picked, ResRecord.without, ResRecord.stations, ResRecord.claims, List.map_map, List.map_append,
    Function.comp_def, List.append_assoc]
  refine List.Perm.append_left _ ?_
  rw [← List.append_assoc, ← List.append_assoc]
  exact List.Perm.append_right _ List.perm_append_comm

theorem Tbu.stations_without_perm (t : Tbu) :
    (stationsOf t.records).Perm ((t.picked p).map (·.2.station) ++ stationsOf (t.without p).records) := by
  unfold Tbu.picked Tbu.without stationsOf
  simp only
  induction t.records with
  | nil => exact List.Perm.refl _
  | cons r rs ih =>
    simp only [List.flatMap_cons, List.map_cons, List.map_append, List.append_assoc]
    refine ((ResRecord.stations_without_perm p r).append ih).trans ?_
    simp only [List.append_assoc]
    refine List.Perm.append_left _ ?_
    rw [← List.append_assoc, ← List.append_assoc]
    exact List.Perm.append_right _ List.perm_append_comm

theorem ResRecord.without_stations_sublist (r : ResRecord) : (r.without p).stations.Sublist r.stations :=
  (List.filter_sublist.append List.filter_sublist).map _

theorem exclusiveAlone.without {r : ResRecord} (h : exclusiveAlone r) : exclusiveAlone (r.without p) := by
  intro c hc mode
  have hm := List.mem_filter.mp hc
  have one := h c hm.1 mode
  have le : (r.without p).holders.length ≤ r.holders.length := List.length_filter_le _ _
  have pos := List.length_pos_of_mem hc
  omega

/-- A record from which nothing is picked stays as it is. -/
theorem ResRecord.without_of_picked_nil {r : ResRecord} (h : r.picked p = []) : r.without p = r := by
  simp only [ResRecord.picked, List.map_eq_nil_iff, List.append_eq_nil_iff, List.filter_eq_nil_iff,
    Bool.not_eq_true] at h
  exact ResRecord.without_none h.1 h.2

theorem CountsSound.without {t : Tbu} (h : CountsSound t) : CountsSound (t.without p) := by
  rw [countsSound_iff] at h ⊢
  obtain ⟨inUse, records, free, count, quota, numbers⟩ := h
  have perm := t.stations_without_perm p
  have picked16 : ∀ g ∈ t.picked p, g.2.station < 16 := fun g hg =>
    numbers _ (perm.mem_iff.mpr (List.mem_append_left _ (List.mem_map_of_mem hg)))
  have counted : ∀ k < 16, (t.without p).count k = (stationsOf (t.without p).records).count k := by
    intro k hk
    have old := count k hk
    have split := perm.count_eq k
    rw [List.count_append] at split
    have picked : (t.picked p).countP (fun g => g.2.station == k) = ((t.picked p).map (·.2.station)).count k := by
      rw [List.count, List.countP_map]; rfl
    have new : (t.without p).count k = t.count k - (t.picked p).countP (fun g => g.2.station == k) :=
      countDown_foldl _ _ _ picked16
    omega
  have total := perm.length_eq
  rw [List.length_append, List.length_map] at total
  refine ⟨inUse.trans (List.length_map _).symm, (List.length_map _).trans_le records, ?_, counted, fun k hk => ?_,
    fun k hk => numbers k (perm.mem_iff.mpr (List.mem_append_right _ hk))⟩
  · show t.free + (t.picked p).length + _ = _
    omega
  · have := perm.count_eq k
    rw [List.count_append] at this
    have := quota k hk
    have := count k hk
    have := counted k hk
    omega

/-- A resource number has one record (R1). -/
theorem recordsOrdered.unique {l : List ResRecord} (h : recordsOrdered l) {x y : ResRecord} (hx : x ∈ l) (hy : y ∈ l)
    (e : x.resource = y.resource) : x = y :=
  List.inj_on_of_nodup_map (List.pairwise_map.mpr (h.1.imp BitVec.ne_of_lt)) hx hy e

/-- A record's place in the table, all others of other numbers (R1). -/
theorem recordsOrdered.split {l : List ResRecord} (h : recordsOrdered l) {x : ResRecord} (hx : x ∈ l) :
    ∃ before after, l = before ++ x :: after ∧ (∀ r ∈ before, r.resource ≠ x.resource)
      ∧ ∀ r ∈ after, r.resource ≠ x.resource := by
  obtain ⟨before, after, rfl⟩ := List.append_of_mem hx
  obtain ⟨-, tail, apart⟩ := List.pairwise_append.mp h.1
  exact ⟨before, after, rfl, fun r hr => BitVec.ne_of_lt (apart r hr x List.mem_cons_self),
    fun r hr => (BitVec.ne_of_lt ((List.pairwise_cons.mp tail).1 r hr)).symm⟩

theorem recordsOrdered_map {f : ResRecord → ResRecord} (hf : ∀ r, (f r).resource = r.resource) {l : List ResRecord}
    (h : recordsOrdered l) : recordsOrdered (l.map f) := by
  refine ⟨List.pairwise_map.mpr (h.1.imp fun {a b} hab => ?_), List.forall_mem_map.mpr fun r hr => ?_⟩
  · rw [hf, hf]; exact hab
  · rw [hf]; exact h.2 r hr

/-- A removal of claims, with its records touched, keeps the table (R9, R13). -/
theorem App.Kept.remove {w : Prop} {a : App} (h : a.Kept w) (kind : NoteKind) (rotation : Word32) :
    (a.remove p kind rotation).Kept w where
  ordered := recordsOrdered_map (f := ResRecord.without p) (fun _ => rfl) h.ordered
  formed := List.forall_mem_map.mpr fun r hr =>
    ⟨(h.formed r hr).1.without p, (h.formed r hr).2.sublist (r.without_stations_sublist p)⟩
  settled := List.forall_mem_map.mpr fun r hr untouched => by
    have notTouched : r.resource ∉ a.touched ++ (a.tbu.picked p).map (·.1) := untouched
    have nothing : r.picked p = [] := by
      refine List.eq_nil_iff_forall_not_mem.mpr fun g hg => notTouched (List.mem_append_right _ ?_)
      have number : g.1 = r.resource := by
        obtain ⟨c, -, rfl⟩ := List.mem_map.mp hg; rfl
      exact number ▸ List.mem_map_of_mem (List.mem_flatMap.mpr ⟨r, hr, hg⟩)
    rw [ResRecord.without_of_picked_nil p nothing]
    exact h.settled r hr fun m => notTouched (List.mem_append_left _ m)
  counts := h.counts.without p

end

/-! ### Grant passes (R11) -/

/-- A grant pass only moves claims from one list to the other, in their order. -/
theorem grantLoop_stations (r : Word32) (ws : List Claim) : ∀ hs : List Claim,
    ((grantLoop r hs ws).1 ++ (grantLoop r hs ws).2.1).map (·.station) = (hs ++ ws).map (·.station) := by
  induction ws with
  | nil => intro hs; rfl
  | cons w ws ih =>
    intro hs
    unfold grantLoop
    split
    · rw [ih]; simp [Claim.granted]
    · rfl

/-- The head waiter after a grant pass is not compatible with the holders (R11). -/
theorem grantLoop_head_waits (r : Word32) (ws : List Claim) : ∀ hs : List Claim, ∀ x xs,
    (grantLoop r hs ws).2.1 = x :: xs → compatible x.mode (grantLoop r hs ws).1 = false := by
  induction ws with
  | nil => intro hs x xs h; cases h
  | cons w ws ih =>
    intro hs x xs h
    unfold grantLoop at h ⊢
    split at h
    next compat => rw [if_pos compat]; exact ih _ _ _ h
    next incompat => rw [if_neg incompat]; cases h; simpa using incompat

/-- Beside a compatible claim newly granted no EXCLUSIVE holder has company. -/
theorem exclusiveAlone_granted {hs : List Claim} {c : Claim} (compat : compatible c.mode hs = true) :
    ∀ d ∈ hs ++ [c], d.mode = .exclusive → (hs ++ [c]).length = 1 := by
  intro d hd mode
  cases hc : c.mode with
  | shared =>
    rw [hc] at compat
    rcases List.mem_append.mp hd with hd | hd
    · simp only [compatible, hasExclusive, Bool.not_eq_true', List.any_eq_false, beq_iff_eq] at compat
      exact absurd mode (compat d hd)
    · rw [List.mem_singleton.mp hd, hc] at mode; cases mode
  | exclusive =>
    rw [hc] at compat
    simp only [compatible, List.isEmpty_iff] at compat
    rw [compat]; rfl

theorem grantLoop_alone (r : Word32) (ws : List Claim) : ∀ hs : List Claim,
    (∀ c ∈ hs, c.mode = .exclusive → hs.length = 1) →
    ∀ d ∈ (grantLoop r hs ws).1, d.mode = .exclusive → (grantLoop r hs ws).1.length = 1 := by
  induction ws with
  | nil => intro hs alone; exact alone
  | cons w ws ih =>
    intro hs alone
    unfold grantLoop
    split
    next compat => exact ih _ (exclusiveAlone_granted (c := w.granted r) compat)
    next => exact alone

theorem ResRecord.passed_stations (r : Word32) (x : ResRecord) : (x.passed r).stations = x.stations :=
  grantLoop_stations r x.waiters x.holders

theorem ResRecord.passed_headWaits (r : Word32) (x : ResRecord) : headWaits (x.passed r) :=
  fun w ws h => grantLoop_head_waits r x.waiters x.holders w ws h

theorem exclusiveAlone.passed {x : ResRecord} (r : Word32) (h : exclusiveAlone x) : exclusiveAlone (x.passed r) :=
  grantLoop_alone r x.waiters x.holders h

theorem oneClaimEach.passed {x : ResRecord} (r : Word32) (h : oneClaimEach x) : oneClaimEach (x.passed r) := by
  have := x.passed_stations r
  unfold oneClaimEach ResRecord.stations at *
  rw [this]; exact h

theorem ResRecord.isBare_iff (x : ResRecord) : x.isBare = true ↔ x.holders = [] ∧ x.waiters = [] := by
  simp [ResRecord.isBare]

/-- A record whose head waiter waits has a holder, or no claim at all. -/
theorem headWaits.holders_ne_nil {x : ResRecord} (h : headWaits x) (notBare : x.isBare = false) : x.holders ≠ [] := by
  intro none_
  cases hw : x.waiters with
  | nil => rw [(ResRecord.isBare_iff x).mpr ⟨none_, hw⟩] at notBare; cases notBare
  | cons w ws =>
    have := h w ws hw
    rw [none_] at this
    cases hm : w.mode <;> simp [hm, compatible, hasExclusive] at this

theorem ResRecord.stations_of_bare {x : ResRecord} (h : x.isBare = true) : x.stations = [] := by
  obtain ⟨hs, ws⟩ := x.isBare_iff.mp h
  simp [ResRecord.stations, ResRecord.claims, hs, ws]

/-- The grant passes lose no claim and make none. -/
theorem passRecords_stations (touched : List Word16) (r : Word32) (l : List ResRecord) :
    stationsOf (passRecords touched r l) = stationsOf l := by
  unfold passRecords stationsOf
  induction l with
  | nil => rfl
  | cons x xs ih =>
    rw [List.map_cons, List.filter_cons, List.flatMap_cons]
    by_cases ht : touched.contains x.resource = true
    · have number : touched.contains (x.passed r).resource = true := ht
      rw [if_pos ht, number, Bool.true_and]
      cases bare : (x.passed r).isBare with
      | true =>
        have := ResRecord.stations_of_bare bare
        rw [ResRecord.passed_stations] at this
        rw [this]; exact ih
      | false =>
        rw [Bool.not_false, if_pos rfl, List.flatMap_cons, ResRecord.passed_stations, ih]
    · rw [if_neg ht]
      simp only [ht, Bool.false_and, Bool.not_false, if_true, List.flatMap_cons, ih]

/-- A record after the passes: one not touched, or a touched one after its pass and not bare. -/
theorem mem_passRecords {touched : List Word16} {r : Word32} {l : List ResRecord} {y : ResRecord}
    (h : y ∈ passRecords touched r l) :
    ∃ x ∈ l, (x.resource ∉ touched ∧ y = x) ∨ (x.resource ∈ touched ∧ y = x.passed r ∧ y.isBare = false) := by
  obtain ⟨hm, notBare⟩ := List.mem_filter.mp h
  obtain ⟨x, hx, rfl⟩ := List.mem_map.mp hm
  refine ⟨x, hx, ?_⟩
  by_cases ht : x.resource ∈ touched
  · have c : touched.contains x.resource = true := by simpa using ht
    have number : touched.contains (x.passed r).resource = true := c
    rw [if_pos c, number] at notBare
    rw [if_pos c]
    exact .inr ⟨ht, rfl, by simpa using notBare⟩
  · have c : ¬ touched.contains x.resource = true := by simpa using ht
    rw [if_neg c]
    exact .inl ⟨ht, rfl⟩

theorem recordsOrdered_passRecords {touched : List Word16} {r : Word32} {l : List ResRecord} (h : recordsOrdered l) :
    recordsOrdered (passRecords touched r l) := by
  have mapped : recordsOrdered (l.map (fun x => if touched.contains x.resource then x.passed r else x)) :=
    recordsOrdered_map (fun x => by split <;> rfl) h
  exact ⟨mapped.1.filter _, fun y hy => mapped.2 y (List.mem_filter.mp hy).1⟩

/-- The grant passes settle the table (R9, R11, R13). -/
theorem App.Kept.grantPasses {w : Prop} {a : App} (h : a.Kept w) (r : Word32) : (a.grantPasses r).Settled w := by
  refine ⟨rfl, recordsOrdered_passRecords h.ordered, fun y hy => ?_, fun y hy _ => ?_, ?_⟩
  · obtain ⟨x, hx, ⟨-, rfl⟩ | ⟨-, rfl, -⟩⟩ := mem_passRecords hy
    · exact h.formed _ hx
    · exact ⟨(h.formed x hx).1.passed r, (h.formed x hx).2.passed r⟩
  · obtain ⟨x, hx, ⟨untouched, rfl⟩ | ⟨-, rfl, notBare⟩⟩ := mem_passRecords hy
    · exact h.settled _ hx untouched
    · exact ⟨(x.passed_headWaits r).holders_ne_nil notBare, fun _ => x.passed_headWaits r⟩
  · have old := (countsSound_iff _).mp h.counts
    obtain ⟨inUse, records, free, count, quota, numbers⟩ := old
    have len : (passRecords a.touched r a.tbu.records).length ≤ a.tbu.records.length :=
      (List.length_filter_le _ _).trans_eq (List.length_map _)
    have same := passRecords_stations a.touched r a.tbu.records
    refine (countsSound_iff _).mpr ⟨?_, len.trans records, ?_, fun k hk => ?_, quota, ?_⟩
    · show a.tbu.inUse - (a.tbu.records.length - (passRecords a.touched r a.tbu.records).length)
        = (passRecords a.touched r a.tbu.records).length
      omega
    · exact same ▸ free
    · exact same ▸ count k hk
    · exact same ▸ numbers

/-! ### New claims (R8, R28, R30) -/

/-- The table's counts with one claim more of a station that has room for it (R6, R7). -/
theorem CountsSound.addClaim {t u : Tbu} {s : Nat} (h : CountsSound t) (hs : s < 16) (quota : t.count s < 32)
    (free : t.free ≠ 0) (stations : (stationsOf u.records).Perm (s :: stationsOf t.records))
    (hfree : u.free = t.free - 1) (hcounts : u.counts = countUp t.counts s) (inUse : u.inUse = u.records.length)
    (records : u.records.length ≤ 64) : CountsSound u := by
  obtain ⟨-, -, pool, count, limit, numbers⟩ := (countsSound_iff _).mp h
  have up : ∀ k, u.count k = if k = s then t.count s + 1 else t.count k := fun k => by
    rw [Tbu.count, hcounts]; exact countUp_get t.counts k hs
  have total := stations.length_eq
  rw [List.length_cons] at total
  refine (countsSound_iff _).mpr ⟨inUse, records, by omega, fun k hk => ?_, fun k hk => ?_, fun k hk => ?_⟩
  · rw [up, stations.count_eq, List.count_cons, ← count k hk]
    by_cases e : k = s
    · simp [e]
    · simp [e, Ne.symm e]
  · rw [up]
    split
    · omega
    · exact limit k hk
  · rcases List.mem_cons.mp (stations.mem_iff.mp hk) with rfl | hk
    · exact hs
    · exact numbers k hk

theorem mem_insertRecord {x y : ResRecord} {l : List ResRecord} : y ∈ insertRecord x l ↔ y = x ∨ y ∈ l := by
  induction l with
  | nil => simp [insertRecord]
  | cons r rs ih =>
    unfold insertRecord
    split
    · simp
    · rw [List.mem_cons, ih, List.mem_cons]; tauto

theorem insertRecord_length (x : ResRecord) (l : List ResRecord) : (insertRecord x l).length = l.length + 1 := by
  induction l with
  | nil => rfl
  | cons r rs ih => unfold insertRecord; split <;> simp [ih]

theorem insertRecord_stations (x : ResRecord) (l : List ResRecord) :
    (stationsOf (insertRecord x l)).Perm (x.stations ++ stationsOf l) := by
  induction l with
  | nil => exact List.Perm.refl _
  | cons r rs ih =>
    unfold insertRecord
    split
    · exact List.Perm.refl _
    · simp only [stationsOf, List.flatMap_cons] at ih ⊢
      refine (List.Perm.append_left _ ih).trans ?_
      rw [← List.append_assoc, ← List.append_assoc]
      exact List.Perm.append_right _ List.perm_append_comm

/-- A new record takes its place in the order (R1, R8). -/
theorem recordsOrdered_insertRecord {x : ResRecord} {l : List ResRecord} (h : recordsOrdered l) (pos : x.resource ≠ 0)
    (new : ∀ r ∈ l, r.resource ≠ x.resource) : recordsOrdered (insertRecord x l) := by
  refine ⟨?_, fun r hr => ?_⟩
  · obtain ⟨ordered, -⟩ := h
    induction l with
    | nil => exact List.pairwise_singleton _ _
    | cons r rs ih =>
      obtain ⟨first, rest⟩ := List.pairwise_cons.mp ordered
      unfold insertRecord
      split
      next before =>
        refine List.pairwise_cons.mpr ⟨fun y hy => ?_, ordered⟩
        rcases List.mem_cons.mp hy with rfl | hy
        · exact before
        · exact BitVec.lt_trans before (first y hy)
      next notBefore =>
        refine List.pairwise_cons.mpr ⟨fun y hy => ?_, ih (fun y hy => new y (List.mem_cons_of_mem _ hy)) rest⟩
        rcases mem_insertRecord.mp hy with rfl | hy
        · have other := new r List.mem_cons_self
          bv_omega
        · exact first y hy
  · rcases mem_insertRecord.mp hr with rfl | hr
    · exact pos
    · exact h.2 r hr

/-- A claim added to the one record of a resource number. -/
theorem modifyRecord_stations {l : List ResRecord} {x : ResRecord} {f : ResRecord → ResRecord} {s : Nat}
    (h : recordsOrdered l) (hx : x ∈ l) (add : (f x).stations.Perm (s :: x.stations)) :
    (stationsOf (modifyRecord x.resource f l)).Perm (s :: stationsOf l) := by
  obtain ⟨before, after, rfl, hb, ha⟩ := h.split hx
  have keep : ∀ m : List ResRecord, (∀ r ∈ m, r.resource ≠ x.resource) →
      m.map (fun r => if r.resource = x.resource then f r else r) = m := fun m hm =>
    (List.map_congr_left fun r hr => if_neg (hm r hr)).trans (List.map_id m)
  rw [modifyRecord, List.map_append, List.map_cons, if_pos rfl, keep _ hb, keep _ ha]
  simp only [stationsOf, List.flatMap_append, List.flatMap_cons]
  refine (List.Perm.append_left _ (List.Perm.append_right _ add)).trans ?_
  exact List.perm_middle

/-- What the acceptance of an ACQUIRE says of the table (R26). -/
theorem Tbu.acquireRefusal_eq_none {t : Tbu} {s : Nat} {x : Word16} (h : t.acquireRefusal s x = none) :
    (∀ r, t.find x = some r → r.holding s = none ∧ r.waitingOf s = none) ∧ t.count s < 32 ∧ t.free ≠ 0
      ∧ (t.find x = none → t.inUse < 64) := by
  unfold Tbu.acquireRefusal at h
  split_ifs at h with held waits quota free full
  refine ⟨fun r hr => ?_, Nat.not_le.mp quota, free, fun absent => ?_⟩
  · rw [hr] at held waits
    simpa using And.intro held waits
  · simpa [absent] using full

/-- A station without a claim in a record may get one. -/
theorem ResRecord.station_new {x : ResRecord} {s : Nat} (h1 : x.holding s = none) (h2 : x.waitingOf s = none) :
    s ∉ x.stations := by
  unfold ResRecord.holding at h1
  unfold ResRecord.waitingOf at h2
  rw [List.find?_eq_none] at h1 h2
  intro hs
  obtain ⟨c, hc, e⟩ := List.mem_map.mp hs
  rcases List.mem_append.mp hc with hc | hc
  · exact h1 c hc (by simpa using e)
  · exact h2 c hc (by simpa using e)

/-- A change of one record that adds a claim of a station new to it keeps the table. -/
theorem TableKept.modify {w : Prop} {t u : Tbu} {x : ResRecord} {f : ResRecord → ResRecord} {s : Nat}
    (h : TableKept w [] t) (hx : x ∈ t.records) (hs : s < 16) (quota : t.count s < 32) (free : t.free ≠ 0)
    (number : ∀ r, (f r).resource = r.resource) (add : (f x).stations.Perm (s :: x.stations)) (new : s ∉ x.stations)
    (alone : exclusiveAlone (f x)) (holders : (f x).holders ≠ []) (waits : w → headWaits (f x))
    (hrecords : u.records = modifyRecord x.resource f t.records) (hfree : u.free = t.free - 1)
    (hcounts : u.counts = countUp t.counts s) (hinUse : u.inUse = t.inUse) : TableKept w [] u := by
  obtain ⟨inUse, records, -⟩ := (countsSound_iff _).mp h.counts
  have len : u.records.length = t.records.length := by rw [hrecords]; exact List.length_map _
  have each : ∀ r ∈ u.records, r ∈ t.records ∨ r = f x := by
    rw [hrecords]
    refine List.forall_mem_map.mpr fun r hr => ?_
    split
    next e =>
      exact .inr (by rw [h.ordered.unique hr hx e])
    next => exact .inl hr
  refine ⟨?_, fun r hr => ?_, fun r hr _ => ?_, ?_⟩
  · rw [hrecords]
    exact recordsOrdered_map (fun r => by split <;> simp [number]) h.ordered
  · rcases each r hr with hr | rfl
    · exact h.formed r hr
    · exact ⟨alone, add.nodup_iff.mpr (List.nodup_cons.mpr ⟨new, (h.formed x hx).2⟩)⟩
  · rcases each r hr with hr | rfl
    · exact h.settled r hr nofun
    · exact ⟨holders, waits⟩
  · refine h.counts.addClaim hs quota free ?_ hfree hcounts (by rw [hinUse, inUse, len]) (len.trans_le records)
    rw [hrecords]
    exact modifyRecord_stations h.ordered hx add

/-! ### Operations (R26 to R39) -/

section
variable {w : Prop} {a : App} {s : Nat} {r : Word32} {q : Request}

theorem App.Settled.say (h : a.Settled w) (o : Outcome) : (a.say o).Settled w := h

theorem App.Settled.refuse (h : a.Settled w) (why : RefusalReason) : (a.refuse s r q why).Settled w := h

/-- A holding claim that no holder forbids, in a record without waiters, keeps the table (R10, R28). -/
theorem TableKept.addHolder {t : Tbu} {x : Word16} {c : Claim} (h : TableKept w [] t) (hs : c.station < 16)
    (hx : x ≠ 0) (ok : t.acquireRefusal c.station x = none) (free : grantable c.mode (t.find x) = true) :
    TableKept w [] (t.addHolder x c) := by
  obtain ⟨new, quota, pool, room⟩ := Tbu.acquireRefusal_eq_none ok
  unfold Tbu.addHolder
  cases hf : t.find x with
  | none =>
    obtain ⟨inUse, records, -⟩ := (countsSound_iff _).mp h.counts
    have room := room hf
    have absent : ∀ y ∈ t.records, y.resource ≠ x := by simpa [Tbu.find] using hf
    have each : ∀ y ∈ insertRecord ⟨x, [c], []⟩ t.records, y = ⟨x, [c], []⟩ ∨ y ∈ t.records :=
      fun y hy => mem_insertRecord.mp hy
    refine ⟨recordsOrdered_insertRecord h.ordered hx absent, fun y hy => ?_, fun y hy _ => ?_, ?_⟩
    · rcases each y hy with rfl | hy
      · exact ⟨fun _ _ _ => rfl, List.nodup_singleton _⟩
      · exact h.formed y hy
    · rcases each y hy with rfl | hy
      · exact ⟨nofun, fun _ => nofun⟩
      · exact h.settled y hy nofun
    · refine h.counts.addClaim hs quota pool (insertRecord_stations _ _) rfl rfl ?_ ?_
      · show t.inUse + 1 = (insertRecord _ _).length
        rw [insertRecord_length, inUse]
      · show (insertRecord _ _).length ≤ 64
        rw [insertRecord_length]; omega
  | some y =>
    rw [hf] at free
    simp only [grantable, Bool.and_eq_true, List.isEmpty_iff] at free
    have hy := Tbu.find_mem hf
    obtain rfl := Tbu.find_resource hf
    obtain ⟨noHold, noWait⟩ := new y hf
    refine h.modify (x := y) (f := fun z => { z with holders := z.holders ++ [c] }) hy hs quota pool (fun _ => rfl) ?_
      (ResRecord.station_new noHold noWait) (exclusiveAlone_granted free.2) (by simp) (fun _ => ?_) rfl rfl rfl rfl
    · simp only [ResRecord.stations, ResRecord.claims, free.1, List.append_nil, List.map_append, List.map_cons, List.map_nil]
      exact List.perm_append_comm
    · intro u us hu
      rw [show ({ y with holders := y.holders ++ [c] } : ResRecord).waiters = [] from free.1] at hu
      cases hu

/-- A claim at the tail of a wait list keeps the table, where the record's holders or waiters forbid a grant (R10, R30). -/
theorem TableKept.addWaiter {t : Tbu} {x : Word16} {c : Claim} (h : TableKept w [] t) (hs : c.station < 16)
    (ok : t.acquireRefusal c.station x = none) (notFree : grantable c.mode (t.find x) = false) :
    TableKept w [] (t.addWaiter x c) := by
  obtain ⟨new, quota, pool, -⟩ := Tbu.acquireRefusal_eq_none ok
  cases hf : t.find x with
  | none => rw [hf] at notFree; cases notFree
  | some y =>
    rw [hf] at notFree
    have hy := Tbu.find_mem hf
    obtain rfl := Tbu.find_resource hf
    obtain ⟨noHold, noWait⟩ := new y hf
    have old := h.settled y hy nofun
    refine h.modify (x := y) (f := fun z => { z with waiters := z.waiters ++ [c] }) hy hs quota pool (fun _ => rfl) ?_
      (ResRecord.station_new noHold noWait) (h.formed y hy).1 old.1 (fun hw u us hu => ?_) rfl rfl rfl rfl
    · simp only [ResRecord.stations, ResRecord.claims, ← List.append_assoc, List.map_append, List.map_cons, List.map_nil]
      exact List.perm_append_comm
    · cases hws : y.waiters with
      | nil =>
        simp only [hws, List.nil_append] at hu
        cases hu
        simpa [grantable, hws] using notFree
      | cons v vs =>
        simp only [hws, List.cons_append] at hu
        cases hu
        exact old.2 hw u vs hws

theorem App.Settled.acquire {m : Mode} (h : a.Settled w) (hs : s < 16) (hq : q.resource ≠ 0) :
    (a.acquire s r q m).Settled w := by
  unfold App.acquire
  split
  next why _ => exact h.refuse why
  next ok =>
    split
    next free => exact ⟨h.1, h.1.symm ▸ h.kept.addHolder hs hq ok free⟩
    next notFree =>
      split
      · exact h
      · exact ⟨h.1, h.1.symm ▸ h.kept.addWaiter hs ok (by simpa using notFree)⟩

/-- A claim removed from one record, and the pass of that record, keep the table (R9, R11). -/
theorem App.Settled.takeOne (h : a.Settled w) (x : Word16) (st : ClaimState) (o : Outcome) :
    ((({ tbu := a.tbu.without (pickOne x st s), touched := [x], out := a.out } : App).say o).grantPasses r).Settled w := by
  refine App.Kept.grantPasses (a := App.say _ o) ?_ r
  have removed : TableKept w (a.touched ++ (a.tbu.picked (pickOne x st s)).map (·.1)) (a.tbu.without (pickOne x st s)) :=
    App.Kept.remove (pickOne x st s) h.2 .lost r
  refine ⟨removed.ordered, removed.formed, fun y hy untouched => removed.settled y hy fun touched => untouched ?_,
    removed.counts⟩
  rw [h.1, List.nil_append] at touched
  obtain ⟨g, hg, number⟩ := List.mem_map.mp touched
  obtain ⟨z, -, hz⟩ := List.mem_flatMap.mp hg
  obtain ⟨c, hc, e⟩ := List.mem_map.mp hz
  have picked : z.resource = x := by
    rcases List.mem_append.mp hc with hc | hc <;>
      (simp only [List.mem_filter, pickOne, Bool.and_eq_true, beq_iff_eq] at hc; exact hc.2.1.1)
  exact List.mem_singleton.mpr (by rw [← number, ← e, picked])

theorem App.Settled.release (h : a.Settled w) : (a.release s r q).Settled w := by
  unfold App.release
  split
  · exact h.refuse _
  · exact h.takeOne _ _ _

theorem App.Settled.withdraw (h : a.Settled w) : (a.withdraw s r q).Settled w := by
  unfold App.withdraw
  split
  · exact h.refuse _
  · exact h.takeOne _ _ _

end

/-- A change in place keeps the stations of a record's claims. -/
theorem ResRecord.changeHolder_stations {f : Claim → Claim} (hf : ∀ c, (f c).station = c.station) (s : Nat)
    (x : ResRecord) : (x.changeHolder s f).stations = x.stations := by
  simp only [ResRecord.stations, ResRecord.claims, ResRecord.changeHolder, List.map_append, List.map_map]
  congr 1
  exact List.map_congr_left fun c _ => by simp only [Function.comp]; split <;> simp [hf]

/-- A change in place that makes no claim EXCLUSIVE leaves an EXCLUSIVE holder alone. -/
theorem exclusiveAlone.changeHolder {f : Claim → Claim} (hf : ∀ c, (f c).mode = .exclusive → c.mode = .exclusive) (s : Nat)
    {x : ResRecord} (h : exclusiveAlone x) : exclusiveAlone (x.changeHolder s f) := by
  refine List.forall_mem_map.mpr fun c hc mode => (List.length_map _).trans (h c hc ?_)
  split at mode
  · exact hf c mode
  · exact mode

/-- A change in place that keeps every mode leaves the head waiter as compatible as it was. -/
theorem headWaits.changeHolder {f : Claim → Claim} (hf : ∀ c, (f c).mode = c.mode) (s : Nat) {x : ResRecord}
    (h : headWaits x) : headWaits (x.changeHolder s f) := by
  intro u us hu
  have modes : ∀ c, (if c.station = s then f c else c).mode = c.mode := fun c => by split <;> simp [hf]
  have same : compatible u.mode (x.changeHolder s f).holders = compatible u.mode x.holders := by
    cases u.mode <;> simp [compatible, hasExclusive, ResRecord.changeHolder, modes, Function.comp_def]
  rw [same]; exact h u us hu

/-- A change in place of a station's held claim keeps the table (R2, R34, R38). -/
theorem App.Kept.changeHeld {w : Prop} {a : App} (h : a.Kept w) {f : Claim → Claim} (x : Word16) (s : Nat)
    (stations : ∀ c, (f c).station = c.station) (modes : ∀ c, (f c).mode = .exclusive → c.mode = .exclusive)
    (heads : x ∈ a.touched ∨ ∀ c, (f c).mode = c.mode) : (a.changeHeld x s f).Kept w := by
  have number : ∀ r : ResRecord, (if r.resource = x then r.changeHolder s f else r).resource = r.resource :=
    fun r => by split <;> rfl
  have same : stationsOf (a.changeHeld x s f).tbu.records = stationsOf a.tbu.records := by
    refine (List.flatMap_map ..).trans (List.flatMap_congr fun r _ => ?_)
    split
    · exact r.changeHolder_stations stations s
    · rfl
  have len : (a.changeHeld x s f).tbu.records.length = a.tbu.records.length := List.length_map _
  refine ⟨recordsOrdered_map number h.ordered, List.forall_mem_map.mpr fun r hr => ?_,
    List.forall_mem_map.mpr fun r hr untouched => ?_, ?_⟩
  · split
    · refine ⟨(h.formed r hr).1.changeHolder modes s, ?_⟩
      have := r.changeHolder_stations stations s
      unfold oneClaimEach ResRecord.stations at *
      rw [this]; exact (h.formed r hr).2
    · exact h.formed r hr
  · have old := h.settled r hr (fun m => untouched ((number r).symm ▸ m))
    split
    next e =>
      refine ⟨fun none_ => old.1 (List.map_eq_nil_iff.mp none_), fun hw => ?_⟩
      rcases heads with touched | keeps
      · exact absurd touched (fun m => untouched (by rw [if_pos e]; exact e ▸ m))
      · exact (old.2 hw).changeHolder keeps s
    next => exact old
  · have old := (countsSound_iff _).mp h.counts
    refine (countsSound_iff _).mpr ?_
    rw [same, len]
    exact old

section
variable {w : Prop} {a : App} {s : Nat} {r : Word32} {q : Request}

theorem App.Settled.renew (h : a.Settled w) : (a.renew s r q).Settled w := by
  unfold App.renew
  split
  · exact h.refuse _
  · exact ⟨h.1, h.2.changeHeld _ _ (fun _ => rfl) (fun _ => id) (.inr fun _ => rfl)⟩

theorem App.Settled.downgrade (h : a.Settled w) : (a.downgrade s r q).Settled w := by
  unfold App.downgrade
  split
  · exact h.refuse _
  · split
    · exact h.refuse _
    · have begun : ({ a with touched := [q.resource] } : App).Kept w :=
        ⟨h.2.ordered, h.2.formed, fun y hy _ => h.kept.settled y hy nofun, h.2.counts⟩
      exact App.Kept.grantPasses (begun.changeHeld (f := Claim.madeShared) q.resource s (fun _ => rfl) (fun _ => nofun)
        (.inl (List.mem_singleton.mpr rfl))) r

/-- Every operation in range keeps the table (R20, R24). -/
theorem App.Settled.operation (h : a.Settled w) (hs : s < 16) (hq : q.wf = true) : (App.operation s r a q).Settled w := by
  have hr : q.resource ≠ 0 := by
    simp only [Request.wf, Bool.and_eq_true, decide_eq_true_eq] at hq; exact hq.1.1.1.1.1
  unfold App.operation
  split
  · split
    · exact h
    · exact h.acquire hs hr
  · exact h.release
  · exact h.renew
  · exact h.withdraw
  · exact h.downgrade

end

/-! ### Boundaries and roster effects (R52 to R63) -/

section
variable {w : Prop} {a : App}

theorem App.Kept.setEntry (h : a.Kept w) (k : Nat) (e : RosterEntry) : (a.setEntry k e).Kept w :=
  ⟨h.ordered, h.formed, h.settled, h.counts⟩

theorem App.Settled.setEntry (h : a.Settled w) (k : Nat) (e : RosterEntry) : (a.setEntry k e).Settled w :=
  ⟨h.1, h.2.setEntry k e⟩

theorem App.Kept.cancelJoin (h : a.Kept w) (k : Nat) (r : Word32) : (a.cancelJoin k r).Kept w :=
  (h.remove _ _ r).setEntry k _

theorem App.Kept.cancelServed (h : a.Kept w) (k : Nat) (r : Word32) : (a.cancelServed k r).Kept w := by
  unfold App.cancelServed
  split
  · exact h
  · split
    · exact h.cancelJoin _ r
    · exact h

theorem App.Kept.joinExpiry (h : a.Kept w) (b : Word32) : (a.joinExpiry b).Kept w := by
  unfold App.joinExpiry
  split
  · exact h
  · split
    · split
      · exact h.cancelJoin _ b
      · exact h
    · exact h
    · exact h

theorem App.Kept.absenceAt (h : a.Kept w) (m : Nat) (b : Word32) (k : Nat) : (App.absenceAt m b a k).Kept w := by
  unfold App.absenceAt
  split
  · split
    · exact ((h.remove _ _ b).cancelServed k b).setEntry k _
    · exact h
  · exact h
  · exact h

theorem App.Kept.absence (h : a.Kept w) (n m : Nat) (b : Word32) : (a.absence n m b).Kept w := by
  unfold App.absence
  induction List.range n generalizing a with
  | nil => exact h
  | cons k l ih => exact ih (h.absenceAt m b k)

theorem App.Settled.boundary (h : a.Settled w) (n m : Nat) (b : Word32) : (a.boundary n m b).Settled w := by
  have begun : ({ a with touched := [] } : App).Kept w := h.kept
  exact ((((begun.joinExpiry b).absence n m b).remove _ _ b).remove _ _ b).grantPasses b

theorem App.Settled.boundaryRun (h : a.Settled w) (n m : Nat) (from_ : Word32) (k : Nat) :
    (App.boundaryRun n m from_ k a).Settled w := by
  induction k with
  | zero => exact h
  | succ k ih => exact ih.boundary n m _

theorem App.Settled.boundaries (h : a.Settled w) (n m : Nat) (r : Word32) : (a.boundaries n m r).Settled w := by
  unfold App.boundaries
  split
  · exact h
  next last _ =>
    split
    · have run := h.boundaryRun n m last (r - last).toNat
      exact ⟨run.1, run.2.ordered, run.2.formed, run.2.settled, run.2.counts⟩
    · exact h

theorem App.Settled.frameBoundaries {t : Tbu} (h : TableKept w [] t) (n m : Nat) (f : StreamFrame) :
    (Machine.frameBoundaries n m f t).Settled w := by
  have begun : t.begin.Settled w := ⟨rfl, h⟩
  unfold Machine.frameBoundaries
  split
  · exact begun
  · exact begun.boundaries n m _

/-- The effect of a frame in range keeps the table (R22, R52 to R58). -/
theorem App.Settled.frameEffect (h : a.Settled w) (n : Nat) {f : StreamFrame} (hs : f.sender < 16)
    (hops : ∀ q ∈ f.ops, q.wf = true) : (Machine.frameEffect n f a).Settled w := by
  unfold Machine.frameEffect
  split
  case h_1 => exact ⟨h.1, h.2.ordered, h.2.formed, h.2.settled, h.2.counts⟩
  case h_2 =>
    unfold App.memberEffect
    split
    · have begun := h.setEntry f.sender (.member f.rotation)
      generalize a.setEntry f.sender (.member f.rotation) = b at begun
      generalize f.ops = ops at hops
      induction ops generalizing b with
      | nil => exact begun
      | cons q qs ih =>
        exact ih _ (begun.operation hs (hops q List.mem_cons_self)) (fun x hx => hops x (List.mem_cons_of_mem _ hx))
    · exact h
  case h_3 =>
    unfold App.joinEffect
    split
    · exact h
    · exact h.setEntry _ _
  case h_4 => exact h
  case h_5 =>
    unfold App.readyEffect
    split
    · exact ((h.2.remove _ _ _).grantPasses _).setEntry _ _
    · exact h
  case h_6 =>
    unfold App.leaveEffect
    split
    · exact (((h.2.remove _ _ _).cancelServed _ _).setEntry _ _).grantPasses _
    · exact h

end

/-- The sender and the operations of a stream frame in range (R112, R113). -/
theorem StreamFrame.wf_parts {n : Nat} {f : StreamFrame} (h : f.wf n = true) : f.sender < n ∧ ∀ q ∈ f.ops, q.wf = true := by
  simp only [StreamFrame.wf, Bool.and_eq_true, decide_eq_true_eq, List.all_eq_true] at h
  exact ⟨h.1.1.1.1.1.2, h.2⟩

/-- The application of a frame in range keeps the table, R11's head waiters with it where `w` holds (R14, R22). -/
theorem TableKept.application {w : Prop} {t : Tbu} (h : TableKept w [] t) {n : Nat} (m : Nat) {f : StreamFrame}
    (hn : n ≤ 16) (hf : f.wf n = true) : TableKept w [] (Machine.frameEffect n f (Machine.frameBoundaries n m f t)).tbu := by
  obtain ⟨hs, hops⟩ := StreamFrame.wf_parts hf
  exact ((App.Settled.frameBoundaries h n m f).frameEffect n (by omega) hops).kept

/-! ### Images and the cleared table (R17, R18) -/

/-- The load of an image in range keeps the form of a table, and R11's head waiters where the image keeps them (R18). -/
theorem TableKept.ofImage {w : Prop} {n : Nat} {ros : RosterItem} {recs : List ResRecord} (hn : n ≤ 16)
    (len : recs.length ≤ 64) (wf : ∀ x ∈ recs, x.wf n = true) (form : ImageForm ros recs)
    (waits : w → ∀ x ∈ recs, headWaits x) : TableKept w [] (Tbu.ofImage ros recs) := by
  obtain ⟨ordered, formed, total, quota, -⟩ := form
  have parts : ∀ x ∈ recs, x.resource ≠ 0 ∧ (∀ c ∈ x.claims, c.station < n) ∧ oneClaimEach x := fun x hx => by
    have := wf x hx
    simp only [ResRecord.wf, Bool.and_eq_true, decide_eq_true_eq, List.all_eq_true, Claim.wf] at this
    obtain ⟨⟨⟨⟨⟨h1, -⟩, -⟩, h2⟩, h3⟩, h4⟩ := this
    exact ⟨h1, fun c hc => (List.mem_append.mp hc).elim (fun hc => (h2 c hc).1) fun hc => (h3 c hc).1, h4⟩
  have count : ∀ k < 16, (Tbu.ofImage ros recs).count k = (recs.flatMap ResRecord.claims).countP (fun c => c.station == k) := by
    intro k hk
    simp [Tbu.ofImage, Tbu.count, hk]
  refine ⟨⟨ordered, fun x hx => (parts x hx).1⟩, fun x hx => ⟨(formed x hx).2, (parts x hx).2.2⟩,
    fun x hx _ => ⟨(formed x hx).1, fun hw => waits hw x hx⟩, rfl, len, ?_, count, fun k hk => ?_, fun c hc => ?_⟩
  · show 128 - (recs.flatMap ResRecord.claims).length + (recs.flatMap ResRecord.claims).length = 128
    omega
  · rw [count k hk]; exact quota k hk
  · obtain ⟨x, hx, hc⟩ := List.mem_flatMap.mp hc
    have := (parts x hx).2.1 c hc
    omega

theorem Tbu.cleared_kept (w : Prop) : TableKept w [] Tbu.cleared where
  ordered := ⟨.nil, nofun⟩
  formed := nofun
  settled := nofun
  counts := by unfold CountsSound; decide +kernel

/-- Settles O57: `TableKept` is the table's soundness with the records of the present step left open; every removal touches
what it changes, and the grant passes settle what is touched. -/
theorem applicationKeepsTheTableSound : Obligations.ApplicationKeepsTheTableSound := by
  refine ⟨fun n m f t hn hf sound => ?_, fun n ros recs hn len wf form waits => ?_, ?_⟩
  · exact (tableSound_iff_kept _).mpr (((tableSound_iff_kept t).mp sound).application m hn hf)
  · exact (tableSound_iff_kept _).mpr (TableKept.ofImage hn len wf form fun _ => waits)
  · exact (tableSound_iff_kept _).mpr (Tbu.cleared_kept True)

end Sys2Proof.Machine
end

section
/-! PROOFS. The join slot: which applications may take it, and that none takes it twice (R48, R52). -/

namespace Sys2Proof.Machine

/-- Every entry JOINING in `u` was JOINING in `t`. -/
def NoNewJoiner (t u : Tbu) : Prop := ∀ k, (u.entry k).isJoining = true → (t.entry k).isJoining = true

theorem NoNewJoiner.of_roster {t u : Tbu} (h : u.roster = t.roster) : NoNewJoiner t u := by
  intro k; simp [Tbu.entry, h]

theorem NoNewJoiner.trans {t u v : Tbu} (h : NoNewJoiner t u) (k : NoNewJoiner u v) : NoNewJoiner t v :=
  fun i j => h i (k i j)

theorem OneJoiner.mono {t u : Tbu} (h : OneJoiner t) (k : NoNewJoiner t u) : OneJoiner u :=
  fun i j hi hj => h i j (k i hi) (k j hj)

/-- An entry beyond the 16 station numbers is not set. -/
theorem Tbu.setEntry_beyond (t : Tbu) {k : Nat} (e : RosterEntry) (h : 16 ≤ k) : t.setEntry k e = t := by
  rw [Tbu.setEntry, Vector.setIfInBounds_eq_of_size_le h]

/-- An entry set to NONE or MEMBER takes no join slot. -/
theorem NoNewJoiner.setEntry (t : Tbu) (k : Nat) {e : RosterEntry} (he : e.isJoining = false) :
    NoNewJoiner t (t.setEntry k e) := by
  intro i h
  by_cases hk : k < 16
  · rw [Tbu.entry_setEntry t e i hk] at h
    split at h
    · rw [he] at h; cases h
    · exact h
  · rwa [Tbu.setEntry_beyond t e (Nat.le_of_not_lt hk)] at h

/-! ### Boundaries (R57, R60, R61) -/

theorem NoNewJoiner.cancelJoin (a : App) (k : Nat) (r : Word32) : NoNewJoiner a.tbu (a.cancelJoin k r).tbu :=
  NoNewJoiner.setEntry (a.purge k r).tbu k rfl

theorem NoNewJoiner.cancelServed (a : App) (k : Nat) (r : Word32) : NoNewJoiner a.tbu (a.cancelServed k r).tbu := by
  unfold App.cancelServed
  split
  · exact NoNewJoiner.of_roster rfl
  · split
    · exact NoNewJoiner.cancelJoin a _ _
    · exact NoNewJoiner.of_roster rfl

/-- A station taken out with the join it serves (R51, R57). -/
theorem NoNewJoiner.takeOut (a : App) (k : Nat) (r : Word32) :
    NoNewJoiner a.tbu (((a.purge k r).cancelServed k r).setEntry k .vacant).tbu :=
  (NoNewJoiner.cancelServed (a.purge k r) k r).trans (NoNewJoiner.setEntry _ k rfl)

theorem NoNewJoiner.joinExpiry (a : App) (b : Word32) : NoNewJoiner a.tbu (a.joinExpiry b).tbu := by
  unfold App.joinExpiry
  split
  · exact NoNewJoiner.of_roster rfl
  · split
    · split
      · exact NoNewJoiner.cancelJoin a _ _
      · exact NoNewJoiner.of_roster rfl
    all_goals exact NoNewJoiner.of_roster rfl

theorem NoNewJoiner.absenceAt (m : Nat) (b : Word32) (a : App) (k : Nat) :
    NoNewJoiner a.tbu (App.absenceAt m b a k).tbu := by
  unfold App.absenceAt
  split
  · split
    · exact NoNewJoiner.takeOut a k b
    · exact NoNewJoiner.of_roster rfl
  all_goals exact NoNewJoiner.of_roster rfl

theorem NoNewJoiner.absence (n m : Nat) (b : Word32) (a : App) : NoNewJoiner a.tbu (a.absence n m b).tbu := by
  unfold App.absence
  induction List.range n generalizing a with
  | nil => exact NoNewJoiner.of_roster rfl
  | cons k l ih => exact (NoNewJoiner.absenceAt m b a k).trans (ih _)

/-- A boundary takes no join slot (R60 to R63). -/
theorem NoNewJoiner.boundary (n m : Nat) (a : App) (b : Word32) : NoNewJoiner a.tbu (a.boundary n m b).tbu :=
  ((NoNewJoiner.joinExpiry { a with touched := [] } b).trans (NoNewJoiner.absence n m b _)).trans (NoNewJoiner.of_roster rfl)

theorem NoNewJoiner.boundaryRun (n m : Nat) (from_ : Word32) (k : Nat) (a : App) :
    NoNewJoiner a.tbu (App.boundaryRun n m from_ k a).tbu := by
  induction k with
  | zero => exact NoNewJoiner.of_roster rfl
  | succ k ih => exact ih.trans (NoNewJoiner.boundary n m _ _)

/-- The boundaries that a frame brings take no join slot (R59). -/
theorem NoNewJoiner.frameBoundaries (n m : Nat) (f : StreamFrame) (t : Tbu) :
    NoNewJoiner t (Machine.frameBoundaries n m f t).tbu := by
  unfold Machine.frameBoundaries
  split
  · exact NoNewJoiner.of_roster rfl
  · unfold App.boundaries
    split
    · exact NoNewJoiner.of_roster rfl
    next last _ =>
      split
      · exact (NoNewJoiner.boundaryRun n m last _ t.begin).trans (NoNewJoiner.of_roster rfl)
      · exact NoNewJoiner.of_roster rfl

/-! ### Effects (R22, R52 to R58) -/

/-- Every change of a new claim's record leaves the roster. -/
theorem Tbu.addHolder_roster (t : Tbu) (x : Word16) (c : Claim) : (t.addHolder x c).roster = t.roster := by
  unfold Tbu.addHolder; split <;> rfl

theorem App.acquire_roster (a : App) (s : Nat) (r : Word32) (q : Request) (m : Mode) :
    (a.acquire s r q m).tbu.roster = a.tbu.roster := by
  unfold App.acquire
  split
  · rfl
  · split
    · exact Tbu.addHolder_roster _ _ _
    · split <;> rfl

/-- No operation touches the roster (R24). -/
theorem App.operation_roster (a : App) (s : Nat) (r : Word32) (q : Request) :
    (App.operation s r a q).tbu.roster = a.tbu.roster := by
  unfold App.operation
  split
  · split
    · rfl
    · exact a.acquire_roster s r q _
  · unfold App.release; split <;> rfl
  · unfold App.renew; split <;> rfl
  · unfold App.withdraw; split <;> rfl
  · unfold App.downgrade; split
    · rfl
    · split <;> rfl

theorem App.operations_roster (a : App) (s : Nat) (r : Word32) (ops : List Request) :
    (ops.foldl (App.operation s r) a).tbu.roster = a.tbu.roster := by
  induction ops generalizing a with
  | nil => rfl
  | cons q qs ih => exact (ih _).trans (a.operation_roster s r q)

/-- The slot is free for a JOIN, or the JOIN's own station has it (R52). -/
theorem Tbu.joinDonor_slot {t : Tbu} {n j d : Nat} (h : t.joinDonor n j = some d) : t.joiner = none ∨ t.joiner = some j := by
  unfold Tbu.joinDonor at h
  split at h
  · cases h
  next free =>
    cases hj : t.joiner with
    | none => exact .inl rfl
    | some k => rw [hj] at free; exact .inr (by simpa using free)

/-- Every JOINING entry is the joiner's, when there is at most one. -/
theorem OneJoiner.joiner_of_joining {t : Tbu} (h : OneJoiner t) {k : Nat} (hk : (t.entry k).isJoining = true) :
    t.joiner = some k := by
  cases he : t.entry k with
  | joining start d => exact (h.joiner_eq he).1
  | member _ => rw [he] at hk; cases hk
  | vacant => rw [he] at hk; cases hk

theorem OneJoiner.joinEffect {a : App} (h : OneJoiner a.tbu) (n j : Nat) (r : Word32) :
    OneJoiner (a.joinEffect n j r).tbu := by
  unfold App.joinEffect
  split
  · exact h
  next d hd =>
    by_cases hj : j < 16
    · have only : ∀ k, ((a.tbu.setEntry j (.joining r d)).entry k).isJoining = true → k = j := by
        intro k hk
        rw [Tbu.entry_setEntry _ _ _ hj] at hk
        split at hk
        · assumption
        · have := h.joiner_of_joining hk
          rcases Tbu.joinDonor_slot hd with free | own
          · rw [free] at this; cases this
          · rw [own] at this; exact (Option.some.inj this).symm
      exact fun i k hi hk => (only i hi).trans (only k hk).symm
    · exact (congrArg OneJoiner (a.tbu.setEntry_beyond _ (Nat.le_of_not_lt hj))).mpr h

/-- The effect of any frame leaves at most one join slot in use (R52 to R58). -/
theorem OneJoiner.frameEffect {a : App} (h : OneJoiner a.tbu) (n : Nat) (f : StreamFrame) :
    OneJoiner (Machine.frameEffect n f a).tbu := by
  unfold Machine.frameEffect
  split
  case h_1 => exact h.mono (NoNewJoiner.setEntry a.tbu f.sender rfl)
  case h_2 =>
    unfold App.memberEffect
    split
    · exact (h.mono (NoNewJoiner.setEntry a.tbu f.sender rfl)).mono (NoNewJoiner.of_roster (App.operations_roster _ _ _ _))
    · exact h
  case h_3 => exact h.joinEffect n _ _
  case h_4 => exact h
  case h_5 =>
    unfold App.readyEffect
    split
    · exact h.mono (NoNewJoiner.setEntry ((a.purge f.sender f.rotation).grantPasses f.rotation).tbu f.sender rfl)
    · exact h
  case h_6 =>
    unfold App.leaveEffect
    split
    · exact h.mono ((NoNewJoiner.takeOut a f.sender f.rotation).trans (NoNewJoiner.of_roster rfl))
    · exact h

theorem OneJoiner.application {t : Tbu} (h : OneJoiner t) (n m : Nat) (f : StreamFrame) :
    OneJoiner (Machine.frameEffect n f (Machine.frameBoundaries n m f t)).tbu :=
  (h.mono (NoNewJoiner.frameBoundaries n m f t)).frameEffect n f

/-! ### Images and the cleared table -/

theorem Tbu.entry_ofImage {ros : RosterItem} {recs : List ResRecord} {k : Nat} (hk : k < 16) :
    (Tbu.ofImage ros recs).entry k = ros.entries.getD k .vacant := by
  simp [Tbu.ofImage, Tbu.entry, rosterOf, hk]

/-- Two positions of a list with a property are at least two occurrences. -/
theorem two_le_countP {α : Type} {p : α → Bool} {l : List α} {i j : Nat} {x y : α} (lt : i < j) (hi : l[i]? = some x)
    (hj : l[j]? = some y) (hx : p x = true) (hy : p y = true) : 2 ≤ l.countP p := by
  have front : x ∈ l.take j := List.mem_of_getElem? (by rw [List.getElem?_take_of_lt lt]; exact hi)
  have back : y ∈ l.drop j := List.mem_of_getElem? (i := 0) (by rw [List.getElem?_drop]; exact hj)
  have one := List.countP_pos_iff.mpr ⟨x, front, hx⟩
  have two := List.countP_pos_iff.mpr ⟨y, back, hy⟩
  rw [← List.take_append_drop j l, List.countP_append]
  omega

/-- An image in form has at most one entry JOINING (R125). -/
theorem OneJoiner.ofImage {ros : RosterItem} {recs : List ResRecord} (one : ros.entries.countP RosterEntry.isJoining ≤ 1) :
    OneJoiner (Tbu.ofImage ros recs) := by
  have found : ∀ k, ((Tbu.ofImage ros recs).entry k).isJoining = true →
      ∃ e, ros.entries[k]? = some e ∧ e.isJoining = true := by
    intro k h
    have hk : k < 16 := Tbu.entry_lt (t := Tbu.ofImage ros recs) (by intro e; rw [e] at h; cases h)
    rw [Tbu.entry_ofImage hk, List.getD_eq_getElem?_getD] at h
    cases he : ros.entries[k]? with
    | none => rw [he] at h; cases h
    | some e => rw [he] at h; exact ⟨e, rfl, h⟩
  intro i j hi hj
  obtain ⟨x, hx, jx⟩ := found i hi
  obtain ⟨y, hy, jy⟩ := found j hj
  rcases Nat.lt_trichotomy i j with lt | e | lt
  · have := two_le_countP lt hx hy jx jy; omega
  · exact e
  · have := two_le_countP lt hy hx jy jx; omega

theorem OneJoiner.cleared : OneJoiner Tbu.cleared := by
  intro i j hi
  have : Tbu.cleared.entry i = .vacant := by
    by_cases h : i < 16 <;> simp [Tbu.entry, Tbu.cleared, h]
  rw [this] at hi; cases hi

/-- Settles O58: the JOIN of the slot's own station or of a free slot is the one effect that makes an entry JOINING. -/
theorem applicationKeepsOneJoiner : Obligations.ApplicationKeepsOneJoiner :=
  ⟨fun n m f _ _ _ one => one.application n m f, fun _ _ form => OneJoiner.ofImage form.2.2.2.2, OneJoiner.cleared⟩

end Sys2Proof.Machine
end

section
/-! PROOFS. The grant pass of one record, and the operations on claims that end in one (R10 to R12, R26 to R39). -/

namespace Sys2Proof.Machine

/-! ### Compatibility (R10) -/

/-- A request is compatible with holders none of which is EXCLUSIVE when SHARED, and with no holder when EXCLUSIVE. -/
theorem compatible_iff {m : Mode} {hs : List Claim} : compatible m hs = true ↔
    (m = .shared ∧ ∀ c ∈ hs, c.mode ≠ .exclusive) ∨ (m = .exclusive ∧ hs = []) := by
  cases m <;> simp [compatible, hasExclusive]

theorem incompatible_iff {m : Mode} {hs : List Claim} : compatible m hs = false ↔
    (m = .shared ∧ ∃ c ∈ hs, c.mode = .exclusive) ∨ (m = .exclusive ∧ hs ≠ []) := by
  cases m <;> simp [compatible, hasExclusive]

/-- Compatibility looks at the modes of the holders alone. -/
theorem compatible_congr (m : Mode) {hs ks : List Claim} (h : hs.map (·.mode) = ks.map (·.mode)) :
    compatible m hs = compatible m ks := by
  have key : ∀ l : List Claim, compatible m l = match m with
      | .shared => !(l.map (·.mode)).any (· == .exclusive)
      | .exclusive => (l.map (·.mode)).isEmpty := fun l => by
    cases m <;> simp [compatible, hasExclusive, Function.comp_def]
  rw [key, key, h]

/-! ### The run of grants (R11, R12) -/

/-- A grant pass moves a run of waiters from the head, each compatible with the holders before it. -/
theorem grantLoop_run (r : Word32) (ws : List Claim) : ∀ hs : List Claim, ∃ run : List Claim,
    ws = run ++ (grantLoop r hs ws).2.1 ∧ (grantLoop r hs ws).1 = hs ++ run.map (Claim.granted r)
      ∧ (grantLoop r hs ws).2.2 = run.map (Claim.granted r)
      ∧ ∀ (i : Nat) (c : Claim), run[i]? = some c → compatible c.mode (hs ++ run.take i) = true := by
  induction ws with
  | nil => exact fun hs => ⟨[], rfl, (List.append_nil hs).symm, rfl, nofun⟩
  | cons w ws ih =>
    intro hs
    unfold grantLoop
    split
    next compat =>
      obtain ⟨run, waiters, holders, grants, each⟩ := ih (hs ++ [w.granted r])
      refine ⟨w :: run, congrArg (w :: ·) waiters, ?_, congrArg (w.granted r :: ·) grants, fun i c hc => ?_⟩
      · rw [holders, List.map_cons, List.append_assoc, List.singleton_append]
      · cases i with
        | zero =>
          obtain rfl : w = c := Option.some.inj hc
          rwa [List.take_zero, List.append_nil]
        | succ i =>
          rw [← each i c hc]
          exact compatible_congr _ (by simp [Claim.granted])
    next => exact ⟨[], rfl, (List.append_nil hs).symm, rfl, nofun⟩

/-- A claim as a grant leaves it, with the rotation's sum written on the words (R12). -/
theorem Claim.granted_eq (r : Word32) : Claim.granted r
    = fun c => { c with expiry := if c.lease = 0 then none else some (r + c.lease.setWidth 32) } :=
  funext fun c => by rw [Claim.granted, leaseExpiry_eq]

/-- Settles O53: the run of `grantLoop_run`, which ends where the head waits. -/
theorem grantPassGrantsTheCompatibleHeads : Obligations.GrantPassGrantsTheCompatibleHeads := by
  intro r x
  obtain ⟨run, waiters, holders, grants, each⟩ := grantLoop_run r x.waiters x.holders
  refine ⟨run, waiters, ?_, ?_, rfl, fun i c hc => compatible_iff.mp (each i c hc), fun w ws hw => ?_⟩
  · exact holders.trans (by rw [Claim.granted_eq])
  · exact grants.trans (by rw [Claim.granted_eq])
  · refine incompatible_iff.mp ((compatible_congr _ ?_).trans (x.passed_headWaits r w ws hw))
    show _ = (grantLoop r x.holders x.waiters).1.map _
    rw [holders]
    simp [Claim.granted]

/-! ### A pass of one record -/

/-- The grant passes when one record is touched: its grants, and the record after its pass, or none when it is bare (R9, R11,
R13). -/
theorem App.grantPasses_one {a : App} {y : ResRecord} (r : Word32) (ordered : recordsOrdered a.tbu.records)
    (touched : a.touched = [y.resource]) (found : a.tbu.find y.resource = some y) :
    (a.grantPasses r).out = a.out ++ (y.grants r).map (grantNote r y.resource)
      ∧ (a.grantPasses r).tbu.find y.resource = (if (y.passed r).isBare then none else some (y.passed r))
      ∧ ∀ z, z ≠ y.resource → (a.grantPasses r).tbu.find z = a.tbu.find z := by
  obtain ⟨before, after, split, early, late⟩ := ordered.split (Tbu.find_mem found)
  have own : List.contains [y.resource] y.resource = true := by simp
  have other : ∀ x : ResRecord, x.resource ≠ y.resource → List.contains [y.resource] x.resource = false := fun x hx => by
    simpa using hx
  refine ⟨?_, ?_, fun z hz => ?_⟩
  · show a.out ++ passOutcomes a.touched r a.tbu.records = _
    have silent : ∀ l : List ResRecord, (∀ x ∈ l, x.resource ≠ y.resource) → passOutcomes [y.resource] r l = [] :=
      fun l hl => List.flatMap_eq_nil_iff.mpr fun x hx => by rw [other x (hl x hx)]; rfl
    rw [touched, split]
    have app : passOutcomes [y.resource] r (before ++ y :: after) = passOutcomes [y.resource] r before
        ++ ((y.grants r).map (grantNote r y.resource) ++ passOutcomes [y.resource] r after) := by
      simp [passOutcomes]
    rw [app, silent _ early, silent _ late, List.nil_append, List.append_nil]
  · show (passRecords a.touched r a.tbu.records).find? (fun x => x.resource == y.resource) = _
    have hidden : ∀ l : List ResRecord, (∀ x ∈ l, x.resource ≠ y.resource) →
        (passRecords [y.resource] r l).find? (fun x => x.resource == y.resource) = none := fun l hl =>
      List.find?_eq_none.mpr fun x hx => by
        obtain ⟨z, hz, ⟨-, rfl⟩ | ⟨htouched, -⟩⟩ := mem_passRecords hx
        · simpa using hl x hz
        · exact absurd (List.mem_singleton.mp htouched) (hl z hz)
    have app : passRecords [y.resource] r (before ++ y :: after) = passRecords [y.resource] r before
        ++ ((if (y.passed r).isBare then [] else [y.passed r]) ++ passRecords [y.resource] r after) := by
      have number : (y.passed r).resource = y.resource := rfl
      simp only [passRecords, List.map_append, List.map_cons, List.filter_append, List.filter_cons, own, if_true, number,
        Bool.true_and]
      cases (y.passed r).isBare <;> simp
    rw [touched, split, app, List.find?_append, List.find?_append, hidden _ early, hidden _ late, Option.none_or,
      Option.or_none]
    have number : (y.passed r).resource = y.resource := rfl
    split <;> simp [number]
  · exact passRecords_untouched a.touched r a.tbu.records z (by rw [touched]; simpa using hz)

/-! ### RELEASE and WITHDRAW (R32, R33, R36, R37) -/

section
variable {a : App} {s : Nat} {r : Word32} {q : Request}

/-- The removal of a station's claim from a list of one record, its outcome, and the pass of that record (R9, R11). -/
theorem App.takeOne_eq {x y : ResRecord} {st : ClaimState} {o : Outcome} (ordered : recordsOrdered a.tbu.records)
    (found : a.tbu.find x.resource = some x) (taken : x.without (pickOne x.resource st s) = y) :
    let b := (({ tbu := a.tbu.without (pickOne x.resource st s), touched := [x.resource], out := a.out } : App).say
      o).grantPasses r
    b.out = a.out ++ o :: (y.grants r).map (grantNote r x.resource)
      ∧ b.tbu.find x.resource = (if (y.passed r).isBare then none else some (y.passed r))
      ∧ (∀ z, z ≠ x.resource → b.tbu.find z = a.tbu.find z) ∧ b.tbu.roster = a.tbu.roster
      ∧ b.tbu.lastApplied = a.tbu.lastApplied := by
  intro b
  have number : y.resource = x.resource := by rw [← taken]; rfl
  have foundAfter : (a.tbu.without (pickOne x.resource st s)).find y.resource = some y := by
    rw [find_without, number, found, Option.map_some, taken]
  obtain ⟨out, find, others⟩ := App.grantPasses_one (y := y)
    (a := App.say { tbu := a.tbu.without (pickOne x.resource st s), touched := [x.resource], out := a.out } o) r
    (recordsOrdered_map (f := ResRecord.without _) (fun _ => rfl) ordered) (by rw [number]; rfl) foundAfter
  rw [number] at out find others
  refine ⟨out.trans (List.append_assoc ..), find, fun z hz => (others z hz).trans ?_, rfl, rfl⟩
  show (a.tbu.without (pickOne x.resource st s)).find z = _
  rw [find_without]
  cases hf : a.tbu.find z with
  | none => rfl
  | some u =>
    have other : (u.resource == x.resource) = false := beq_false_of_ne (by rw [Tbu.find_resource hf]; exact hz)
    rw [Option.map_some, ResRecord.without_none] <;> simp [pickOne, other]

/-- RELEASE takes the station's claim out of the holders alone. -/
theorem ResRecord.without_holding (x : ResRecord) (s : Nat) :
    x.without (pickOne x.resource .holding s) = { x with holders := x.holders.filter (fun d => d.station != s) } := by
  simp [ResRecord.without, pickOne, bne]

/-- WITHDRAW takes the station's claim out of the waiters alone. -/
theorem ResRecord.without_waiting (x : ResRecord) (s : Nat) :
    x.without (pickOne x.resource .waiting s) = { x with waiters := x.waiters.filter (fun d => d.station != s) } := by
  simp [ResRecord.without, pickOne, bne]

theorem App.release_of_held {c : Claim} (h : a.tbu.held s q.resource = some c) : a.release s r q
    = (({ tbu := a.tbu.without (pickOne q.resource .holding s), touched := [q.resource], out := a.out } : App).say
      (opNote .released s r q (some c.mode) .absent)).grantPasses r := by
  rw [App.release, h]

theorem App.withdraw_of_waits {c : Claim} (h : a.tbu.waitsOn s q.resource = some c) : a.withdraw s r q
    = (({ tbu := a.tbu.without (pickOne q.resource .waiting s), touched := [q.resource], out := a.out } : App).say
      (opNote .withdrawn s r q (some c.mode) .absent)).grantPasses r := by
  rw [App.withdraw, h]

/-- The waiting claim of a station on a resource is the one its record shows. -/
theorem Tbu.waitsOn_of_find {t : Tbu} {y : Word16} {x : ResRecord} (s : Nat) (h : t.find y = some x) :
    t.waitsOn s y = x.waitingOf s := by
  rw [Tbu.waitsOn, h, Option.bind_some]

end

/-- Settles O50: both operations are the removal of one claim and the pass of its record. -/
theorem releaseAndWithdrawRemoveTheClaim : Obligations.ReleaseAndWithdrawRemoveTheClaim := by
  refine fun a s r q ordered => ⟨fun notHeld kind => ?_, fun notWaiting kind => ?_, fun x c found holds => ?_,
    fun x c found waits => ?_⟩
  · rw [App.release, notHeld]
    exact App.refuse_of_not_acquire a s r _ (by simp [kind])
  · rw [App.withdraw, notWaiting]
    exact App.refuse_of_not_acquire a s r _ (by simp [kind])
  · have number := Tbu.find_resource found
    simp only [App.release_of_held ((Tbu.held_of_find s found).trans holds)]
    rw [← number] at found ⊢
    exact App.takeOne_eq ordered found (x.without_holding s)
  · have number := Tbu.find_resource found
    simp only [App.withdraw_of_waits ((Tbu.waitsOn_of_find s found).trans waits)]
    rw [← number] at found ⊢
    exact App.takeOne_eq ordered found (x.without_waiting s)

/-! ### DOWNGRADE (R38, R39) -/

theorem App.downgrade_of_held {a : App} {s : Nat} {r : Word32} {q : Request} {c : Claim}
    (h : a.tbu.held s q.resource = some c) (mode : c.mode ≠ .shared) : a.downgrade s r q
    = (({ a.changeHeld q.resource s Claim.madeShared with touched := [q.resource] } : App).say
      (opNote .downgraded s r q (some .shared) .absent)).grantPasses r := by
  rw [App.downgrade, h]; simp only [if_neg mode]

/-- The only holder of a record, SHARED in its place, is a holder still after the pass. -/
theorem ResRecord.not_bare_of_holder {x : ResRecord} (r : Word32) (h : x.holders ≠ []) : (x.passed r).isBare = false := by
  obtain ⟨run, -, holders, -⟩ := grantLoop_run r x.waiters x.holders
  have : (x.passed r).holders ≠ [] := by
    show (grantLoop r x.holders x.waiters).1 ≠ []
    rw [holders]; simp [h]
  simp [ResRecord.isBare, this]

/-- Settles O52: DOWNGRADE is a change of the held claim in its place and the pass of its record. -/
theorem downgradeSharesTheClaim : Obligations.DowngradeSharesTheClaim := by
  refine fun a s r q kind ordered => ⟨fun notHeld => ?_, fun c held shared => ?_, fun x c found holders own mode => ?_⟩
  · rw [App.downgrade, notHeld]
    exact App.refuse_of_not_acquire a s r _ (by simp [kind])
  · rw [App.downgrade, held]
    simp only [if_pos shared]
    exact App.refuse_of_not_acquire a s r _ (by simp [kind])
  · have split : x.holders = [] ++ c :: [] := holders
    have held := (Tbu.held_of_find s found).trans (ResRecord.holding_eq_some split own nofun)
    have number := Tbu.find_resource found
    have changed : x.changeHolder s Claim.madeShared = { x with holders := [{ c with mode := .shared }] } :=
      ResRecord.changeHolder_eq _ split own nofun
    simp only [App.downgrade_of_held held (by simp [mode])]
    rw [← number] at found ⊢
    rw [← changed]
    have foundAfter : (a.changeHeld x.resource s Claim.madeShared).tbu.find x.resource
        = some (x.changeHolder s Claim.madeShared) := by
      rw [App.find_changeHeld, if_pos rfl, found, Option.map_some]
    obtain ⟨out, find, others⟩ := App.grantPasses_one (y := x.changeHolder s Claim.madeShared)
      (a := App.say { a.changeHeld x.resource s Claim.madeShared with touched := [x.resource] }
        (opNote .downgraded s r q (some .shared) .absent)) r
      (recordsOrdered_map (fun x => by split <;> rfl) ordered) rfl foundAfter
    refine ⟨out.trans (List.append_assoc ..), find.trans ?_, fun z hz => (others z hz).trans ?_, rfl, rfl, rfl, rfl⟩
    · rw [ResRecord.not_bare_of_holder r (by rw [changed]; simp)]; rfl
    · exact (App.find_changeHeld a x.resource s _ z).trans (if_neg hz)

end Sys2Proof.Machine
end

section
/-! PROOFS. ACQUIRE by the first of its eight cases (R26 to R30). -/

namespace Sys2Proof.Machine

/-- The expiry of R30, with the rotation's sum written on the words. -/
theorem patienceExpiry_eq (r : Word32) (patience : Word16) :
    patienceExpiry r patience = if patience.toNat = 4095 then none else some (r + patience.setWidth 32) := by
  rw [patienceExpiry, rotPlus, BitVec.ofNat_toNat]

/-! ### New claims (R6, R7, R8, R28, R30) -/

/-- What a new claim of station `s` on `x` changes beside the record of `x`: the pool and the station's count. -/
def ClaimCreated (t u : Tbu) (s : Nat) (x : Word16) : Prop :=
  u.free = t.free - 1 ∧ u.count s = t.count s + 1 ∧ (∀ k, k ≠ s → u.count k = t.count k) ∧ u.roster = t.roster
    ∧ u.lastApplied = t.lastApplied ∧ ∀ z, z ≠ x → u.find z = t.find z

/-- A claim of a station taken from the pool, with a change of the one record. -/
theorem ClaimCreated.of_takeClaim {t : Tbu} {s : Nat} {x : Word16} (hs : s < 16) (recs : List ResRecord) (k : Nat)
    (others : ∀ z, z ≠ x → recs.find? (fun r => r.resource == z) = t.find z) :
    ClaimCreated t { t.takeClaim s with records := recs, inUse := k } s x := by
  have up : ∀ j, (countUp t.counts s)[j]?.getD 0 = if j = s then t.count s + 1 else t.count j := fun j =>
    countUp_get t.counts j hs
  exact ⟨rfl, (up s).trans (if_pos rfl), fun j hj => (up j).trans (if_neg hj), rfl, rfl, others⟩

section
variable {t : Tbu} {x : Word16} {c : Claim} (hs : c.station < 16)
include hs

/-- A holding claim in a new record (R8, R28). -/
theorem Tbu.addHolder_new (absent : t.find x = none) : ClaimCreated t (t.addHolder x c) c.station x
    ∧ (t.addHolder x c).inUse = t.inUse + 1 ∧ (t.addHolder x c).find x = some ⟨x, [c], []⟩ := by
  have place := find_insertRecord ⟨x, [c], []⟩ t.records (new := absent)
  rw [Tbu.addHolder, absent]
  exact ⟨ClaimCreated.of_takeClaim hs _ _ fun z hz => (place z).trans (if_neg hz.symm), rfl, (place x).trans (if_pos rfl)⟩

/-- A holding claim at the tail of the holders (R28). -/
theorem Tbu.addHolder_tail {y : ResRecord} (found : t.find x = some y) : ClaimCreated t (t.addHolder x c) c.station x
    ∧ (t.addHolder x c).inUse = t.inUse
    ∧ (t.addHolder x c).find x = some { y with holders := y.holders ++ [c] } := by
  have place := fun z =>
    find_modifyRecord t.records x z (fun r => { r with holders := r.holders ++ [c] }) fun _ => rfl
  rw [Tbu.addHolder, found]
  refine ⟨ClaimCreated.of_takeClaim hs _ _ fun z hz => (place z).trans (if_neg hz), rfl, (place x).trans ?_⟩
  exact (if_pos rfl).trans (congrArg _ found)

/-- A waiting claim at the tail of the wait list (R30). -/
theorem Tbu.addWaiter_tail {y : ResRecord} (found : t.find x = some y) : ClaimCreated t (t.addWaiter x c) c.station x
    ∧ (t.addWaiter x c).inUse = t.inUse
    ∧ (t.addWaiter x c).find x = some { y with waiters := y.waiters ++ [c] } := by
  have place := fun z =>
    find_modifyRecord t.records x z (fun r => { r with waiters := r.waiters ++ [c] }) fun _ => rfl
  refine ⟨ClaimCreated.of_takeClaim hs _ _ fun z hz => (place z).trans (if_neg hz), rfl, (place x).trans ?_⟩
  exact (if_pos rfl).trans (congrArg _ found)

end

/-! ### The cases (R26) -/

section
variable {a : App} {s : Nat} {r : Word32} {q : Request} {m : Mode}

theorem App.acquire_refused {why : RefusalReason} (kind : q.kind = .acquire) (mode : q.mode = some m)
    (h : a.tbu.acquireRefusal s q.resource = some why) :
    a.acquire s r q m = { a with out := a.out ++ [opNote .refused s r q (some m) (.reason why)] } := by
  rw [App.acquire, h]
  simp only [App.refuse, kind, if_true, mode, App.say]

theorem App.acquire_granted (ok : a.tbu.acquireRefusal s q.resource = none)
    (free : grantable m (a.tbu.find q.resource) = true) : a.acquire s r q m
    = ({ a with tbu := a.tbu.addHolder q.resource ⟨s, m, q.tag, q.lease, leaseExpiry r q.lease⟩ } : App).say
      (opNote .granted s r q (some m) (.expiry (leaseExpiry r q.lease))) := by
  rw [App.acquire, ok]
  exact if_pos free

theorem App.acquire_busy (ok : a.tbu.acquireRefusal s q.resource = none)
    (notFree : grantable m (a.tbu.find q.resource) = false) (patience : q.patience = 0) :
    a.acquire s r q m = a.say (opNote .busy s r q (some m) .absent) := by
  rw [App.acquire, ok]
  simp only [notFree, Bool.false_eq_true, if_false, if_pos patience]

theorem App.acquire_queued {x : ResRecord} (ok : a.tbu.acquireRefusal s q.resource = none)
    (found : a.tbu.find q.resource = some x) (notFree : grantable m (some x) = false) (patience : q.patience ≠ 0) :
    a.acquire s r q m
    = ({ a with tbu := a.tbu.addWaiter q.resource ⟨s, m, q.tag, q.lease, patienceExpiry r q.patience⟩ } : App).say
      (opNote .queued s r q (some m) (.position (x.waiters.length + 1))) := by
  rw [App.acquire, ok]
  simp only [found, notFree, Bool.false_eq_true, if_false, if_neg patience, Option.map_some, Option.getD_some]

end

/-- An ACQUIRE is grantable in a record without waiters whose holders it is compatible with (R10). -/
theorem grantable_iff {m : Mode} {x : ResRecord} : grantable m (some x) = true ↔ x.waiters = []
    ∧ ((m = .shared ∧ ∀ c ∈ x.holders, c.mode ≠ .exclusive) ∨ (m = .exclusive ∧ x.holders = [])) := by
  rw [← compatible_iff]; simp [grantable]

theorem not_grantable_iff {m : Mode} {x : ResRecord} : grantable m (some x) = false ↔ x.waiters ≠ []
    ∨ (m = .shared ∧ ∃ c ∈ x.holders, c.mode = .exclusive) ∨ (m = .exclusive ∧ x.holders ≠ []) := by
  rw [← incompatible_iff]; simp [grantable]; tauto

/-- The cases of refusal, in their order, on what the table shows (R26). -/
theorem Tbu.acquireRefusal_eq (t : Tbu) (s : Nat) (x : Word16) : t.acquireRefusal s x
    = if (t.held s x).isSome then some .alreadyHeld
      else if (t.waitsOn s x).isSome then some .alreadyWaiting
      else if 32 ≤ t.count s then some .quota
      else if t.free = 0 then some .claimsFull
      else if (t.find x).isNone && decide (64 ≤ t.inUse) then some .tableFull
      else none := rfl

theorem Tbu.acquireRefusal_none {t : Tbu} {s : Nat} {x : Word16} (held : (t.held s x).isSome = false)
    (waits : (t.waitsOn s x).isSome = false) (quota : t.count s < 32) (free : t.free ≠ 0)
    (room : t.find x = none → t.inUse < 64) : t.acquireRefusal s x = none := by
  have roomy : ((t.find x).isNone && decide (64 ≤ t.inUse)) = false := by
    cases hf : t.find x with
    | none => simpa using room hf
    | some y => rfl
  simp [Tbu.acquireRefusal_eq, held, waits, Nat.not_le.mpr quota, free, roomy]

/-- Settles O49: the refusals by `acquireRefusal_eq`, the others by what a new claim changes. -/
theorem acquireTakesTheFirstMatchingCase : Obligations.AcquireTakesTheFirstMatchingCase := by
  intro a s r q m kind mode hs b refused holds waits absent passes created expiry limit
  have refusedBy : ∀ why, a.tbu.acquireRefusal s q.resource = some why → refused why := fun why h =>
    App.acquire_refused kind mode h
  have lease : leaseExpiry r q.lease = expiry := leaseExpiry_eq r q.lease
  have patience : patienceExpiry r q.patience = limit := patienceExpiry_eq r q.patience
  have accepted : passes → a.tbu.acquireRefusal s q.resource = none := fun ⟨h1, h2, h3, h4, h5⟩ =>
    Tbu.acquireRefusal_none h1 h2 h3 h4 h5
  have createdBy : ∀ u o, b = ({ a with tbu := u } : App).say o → ClaimCreated a.tbu u s q.resource → created := by
    rintro u o hb ⟨h1, h2, h3, h4, h5, h6⟩
    simp only [created, hb]
    exact ⟨h1, h2, h3, h4, h5, rfl, h6⟩
  refine ⟨fun h => refusedBy _ ?_, fun h1 h2 => refusedBy _ ?_, fun h1 h2 h3 => refusedBy _ ?_,
    fun h1 h2 h3 h4 => refusedBy _ ?_, fun h1 h2 h3 h4 => refusedBy _ ?_, fun ok none_ => ?_,
    fun x ok found noWaiter compat => ?_, fun x ok found forbidden => ⟨fun zero => ?_, fun pos => ?_⟩⟩
  · rw [Tbu.acquireRefusal_eq, if_pos h]
  · simp only [holds, waits] at h1 h2
    simp [Tbu.acquireRefusal_eq, h1, h2]
  · simp only [holds, waits] at h1 h2
    simp [Tbu.acquireRefusal_eq, h1, h2, h3]
  · simp only [holds, waits] at h1 h2
    simp [Tbu.acquireRefusal_eq, h1, h2, Nat.not_le.mpr h3, h4]
  · simp only [absent] at h1
    simp [Tbu.acquireRefusal_eq, Tbu.held, Tbu.waitsOn, h1, Nat.not_le.mpr h2, h3, h4]
  · have eq := App.acquire_granted (a := a) (s := s) (r := r) (q := q) (m := m) (accepted ok) (by rw [none_]; rfl)
    rw [lease] at eq
    obtain ⟨new, inUse, find⟩ := Tbu.addHolder_new (c := ⟨s, m, q.tag, q.lease, expiry⟩) hs none_
    refine ⟨createdBy _ _ eq new, ?_⟩
    simp only [b, eq]
    exact ⟨inUse, find, rfl⟩
  · have eq := App.acquire_granted (a := a) (s := s) (r := r) (q := q) (m := m) (accepted ok)
      (by rw [found]; exact grantable_iff.mpr ⟨noWaiter, compat⟩)
    rw [lease] at eq
    obtain ⟨new, inUse, find⟩ := Tbu.addHolder_tail (c := ⟨s, m, q.tag, q.lease, expiry⟩) hs found
    refine ⟨createdBy _ _ eq new, ?_⟩
    simp only [b, eq]
    exact ⟨inUse, find, rfl⟩
  · exact App.acquire_busy (accepted ok) (by rw [found]; exact not_grantable_iff.mpr forbidden) zero
  · have eq := App.acquire_queued (r := r) (accepted ok) found (not_grantable_iff.mpr forbidden) pos
    rw [patience] at eq
    obtain ⟨new, inUse, find⟩ := Tbu.addWaiter_tail (c := ⟨s, m, q.tag, q.lease, limit⟩) hs found
    refine ⟨createdBy _ _ eq new, ?_⟩
    simp only [b, eq]
    exact ⟨inUse, find, rfl⟩

end Sys2Proof.Machine
end

section
/-! PROOFS. Rotation boundaries, their steps, and the roster's effects (R51 to R63). -/

namespace Sys2Proof.Machine

/-! ### Serial comparison (spec/00) -/

theorem later_iff (a b : Word32) : later a b = true ↔ 1 ≤ (a - b).toNat ∧ (a - b).toNat < 2 ^ 31 := by
  simp only [later, Bool.and_eq_true, decide_eq_true_eq]; omega

theorem earlier_iff (a b : Word32) : earlier a b = true ↔ 2 ^ 31 ≤ (a - b).toNat := by simp [earlier]

theorem expired_eq (b : Word32) (e : Option Word32) :
    expired b e = match e with | none => false | some e => decide (2 ^ 31 ≤ (e - b).toNat) := by cases e <;> rfl

/-- A rotation fewer than 2^31 after another is that many after it. -/
theorem sub_of_rotPlus (last : Word32) {k : Nat} (h : k < 2 ^ 31) : (last + BitVec.ofNat 32 k - last).toNat = k := by
  rw [BitVec.add_comm, BitVec.add_sub_cancel, BitVec.toNat_ofNat]
  omega

/-! ### Step 1, join expiry, and step 2, absence (R60, R61) -/

theorem App.joinExpiry_of_joining {a : App} {k : Nat} {start : Word32} {donor : Nat} (one : OneJoiner a.tbu)
    (h : a.tbu.entry k = .joining start donor) (b : Word32) :
    a.joinExpiry b = if later b (rotPlus start 8) then a.cancelJoin k b else a := by
  rw [App.joinExpiry, (one.joiner_eq h).1]
  simp only [h]

theorem App.joinExpiry_of_none {a : App} (h : ∀ k < 16, (a.tbu.entry k).isJoining = false) (b : Word32) :
    a.joinExpiry b = a := by
  rw [App.joinExpiry, Tbu.joiner_none h]

theorem App.absenceAt_of_member {a : App} {k : Nat} {seen : Word32} (h : a.tbu.entry k = .member seen) (m : Nat)
    (b : Word32) : App.absenceAt m b a k
      = if earlier (rotPlus seen m) b then ((a.purge k b).cancelServed k b).setEntry k .vacant else a := by
  rw [App.absenceAt, h]

theorem App.absenceAt_of_other {a : App} {k : Nat} (h : (a.tbu.entry k).isMember = false) (m : Nat) (b : Word32) :
    App.absenceAt m b a k = a := by
  unfold App.absenceAt
  split
  next e => rw [e] at h; cases h
  all_goals rfl

/-! ### Steps 3 and 4, lapsed leases and patiences (R62) -/

/-- The claims whose time is over at boundary `b`. -/
def lapsed (b : Word32) (c : Claim) : Bool := expired b c.expiry

/-- The claims of one list whose expiry is over. -/
def pickLapsed (st : ClaimState) (b : Word32) : ClaimPick := fun _ st' c => st' == st && lapsed b c

theorem pickLapsed_own (st : ClaimState) (b : Word32) (x : Word16) : pickLapsed st b x st = lapsed b := by
  cases st <;> rfl

theorem pickLapsed_holding_waiting (b : Word32) (x : Word16) : pickLapsed .holding b x .waiting = fun _ => false := rfl

theorem pickLapsed_waiting_holding (b : Word32) (x : Word16) : pickLapsed .waiting b x .holding = fun _ => false := rfl

theorem ResRecord.picked_holding (b : Word32) (x : ResRecord) :
    x.picked (pickLapsed .holding b) = (x.holders.filter (lapsed b)).map (fun c => (x.resource, c)) := by
  simp [ResRecord.picked, pickLapsed_own, pickLapsed_holding_waiting]

theorem ResRecord.picked_waiting (b : Word32) (x : ResRecord) :
    x.picked (pickLapsed .waiting b) = (x.waiters.filter (lapsed b)).map (fun c => (x.resource, c)) := by
  simp [ResRecord.picked, pickLapsed_own, pickLapsed_waiting_holding]

theorem ResRecord.without_lapsed_holding (b : Word32) (x : ResRecord) :
    x.without (pickLapsed .holding b) = { x with holders := x.holders.filter (fun c => !lapsed b c) } := by
  simp [ResRecord.without, pickLapsed]

theorem ResRecord.without_lapsed_waiting (b : Word32) (x : ResRecord) :
    x.without (pickLapsed .waiting b) = { x with waiters := x.waiters.filter (fun c => !lapsed b c) } := by
  simp [ResRecord.without, pickLapsed]

/-- What lapses at a boundary in the holder lists. -/
theorem Tbu.picked_lapsed_holding (t : Tbu) (b : Word32) : t.picked (pickLapsed .holding b)
    = t.records.flatMap (fun x => (x.holders.filter (lapsed b)).map (fun c => (x.resource, c))) :=
  List.flatMap_congr fun x _ => x.picked_holding b

/-- What lapses at a boundary in the wait lists. -/
theorem Tbu.picked_lapsed_waiting (t : Tbu) (b : Word32) : t.picked (pickLapsed .waiting b)
    = t.records.flatMap (fun x => (x.waiters.filter (lapsed b)).map (fun c => (x.resource, c))) :=
  List.flatMap_congr fun x _ => x.picked_waiting b

/-- The wait lists do not see the lapse of leases. -/
theorem App.leaseStep_picked_waiting (a : App) (b : Word32) :
    (a.leaseStep b).tbu.picked (pickLapsed .waiting b) = a.tbu.picked (pickLapsed .waiting b) := by
  rw [Tbu.picked_lapsed_waiting, Tbu.picked_lapsed_waiting]
  refine (List.flatMap_map ..).trans (List.flatMap_congr fun x _ => ?_)
  show (((x.without (pickLapsed .holding b)).waiters.filter (lapsed b)).map fun c => (x.resource, c)) = _
  rw [ResRecord.without_lapsed_holding]

/-- The records after steps 3 and 4. -/
theorem App.lapseSteps_records (a : App) (b : Word32) : ((a.leaseStep b).patienceStep b).tbu.records
    = a.tbu.records.map (fun x => { x with
        holders := x.holders.filter (fun c => !lapsed b c), waiters := x.waiters.filter (fun c => !lapsed b c) }) := by
  show ((a.tbu.records.map (ResRecord.without (pickLapsed .holding b))).map (ResRecord.without (pickLapsed .waiting b))) = _
  rw [List.map_map]
  exact List.map_congr_left fun x _ => by
    rw [Function.comp, ResRecord.without_lapsed_waiting, ResRecord.without_lapsed_holding]

/-- The outcomes of steps 3 and 4, EXPIRED and then TIMED_OUT, each in walk order. -/
theorem App.lapseSteps_out (a : App) (b : Word32) : ((a.leaseStep b).patienceStep b).out = a.out
    ++ a.tbu.records.flatMap (fun x => (x.holders.filter (lapsed b)).map (fun c => claimNote .expired b (x.resource, c)))
    ++ a.tbu.records.flatMap (fun x => (x.waiters.filter (lapsed b)).map (fun c => claimNote .timedOut b (x.resource, c))) := by
  show (a.out ++ (a.tbu.picked (pickLapsed .holding b)).map (claimNote .expired b))
    ++ ((a.leaseStep b).tbu.picked (pickLapsed .waiting b)).map (claimNote .timedOut b) = _
  rw [App.leaseStep_picked_waiting, Tbu.picked_lapsed_holding, Tbu.picked_lapsed_waiting]
  simp only [List.map_flatMap, List.map_map, Function.comp_def]

/-- The records that steps 3 and 4 touch. -/
theorem App.lapseSteps_touched (a : App) (b : Word32) (x : Word16) : x ∈ ((a.leaseStep b).patienceStep b).touched ↔
    x ∈ a.touched ∨ ∃ r ∈ a.tbu.records, r.resource = x ∧ ∃ c ∈ r.claims, lapsed b c = true := by
  show x ∈ (a.touched ++ (a.tbu.picked (pickLapsed .holding b)).map (·.1))
    ++ ((a.leaseStep b).tbu.picked (pickLapsed .waiting b)).map (·.1) ↔ _
  rw [App.leaseStep_picked_waiting, Tbu.picked_lapsed_holding, Tbu.picked_lapsed_waiting]
  simp only [List.mem_append, List.map_flatMap, List.map_map, Function.comp_def, List.mem_flatMap, List.mem_map,
    List.mem_filter, ResRecord.claims]
  constructor
  · rintro ((h | ⟨r, hr, c, ⟨hc, late⟩, rfl⟩) | ⟨r, hr, c, ⟨hc, late⟩, rfl⟩)
    · exact .inl h
    · exact .inr ⟨r, hr, rfl, c, .inl hc, late⟩
    · exact .inr ⟨r, hr, rfl, c, .inr hc, late⟩
  · rintro (h | ⟨r, hr, rfl, c, hc | hc, late⟩)
    · exact .inl (.inl h)
    · exact .inl (.inr ⟨r, hr, c, ⟨hc, late⟩, rfl⟩)
    · exact .inr ⟨r, hr, c, ⟨hc, late⟩, rfl⟩

/-! ### Step 5, the grant passes (R63) -/

/-- The records after the passes: those not touched, and the touched ones after their pass, unless bare (R9). -/
theorem passRecords_eq (touched : List Word16) (r : Word32) (l : List ResRecord) : passRecords touched r l
    = l.filterMap (fun x => if x.resource ∉ touched then some x
        else if (x.passed r).holders = [] ∧ (x.passed r).waiters = [] then none else some (x.passed r)) := by
  unfold passRecords
  rw [List.filter_map, ← List.filterMap_eq_map, ← List.filterMap_eq_filter, List.filterMap_filterMap]
  refine List.filterMap_congr fun x _ => ?_
  by_cases h : x.resource ∈ touched
  · have number : (x.passed r).resource = x.resource := rfl
    by_cases bare : (x.passed r).holders = [] ∧ (x.passed r).waiters = []
    · simp [h, number, bare, ResRecord.isBare]
    · have : (x.passed r).isBare = false := by
        rw [← Bool.not_eq_true, ResRecord.isBare_iff]; exact bare
      simp [h, number, bare, this]
  · simp [h]

theorem passOutcomes_eq (touched : List Word16) (r : Word32) (l : List ResRecord) : passOutcomes touched r l
    = l.flatMap (fun x => if x.resource ∉ touched then [] else (x.grants r).map (grantNote r x.resource)) := by
  refine List.flatMap_congr fun x _ => ?_
  by_cases h : x.resource ∈ touched <;> simp [h]

theorem passRecords_length_le (touched : List Word16) (r : Word32) (l : List ResRecord) :
    (passRecords touched r l).length ≤ l.length := (List.length_filter_le _ _).trans_eq (List.length_map _)

/-- Settles O54: steps 1 and 2 take stations out (`takesOut_purge`, `takesOut_served`), steps 3 and 4 are removals by the
claims' expiry, step 5 is `passRecords_eq`. -/
theorem expiredClaimsEndAtTheBoundary : Obligations.ExpiredClaimsEndAtTheBoundary := by
  refine ⟨fun n m a b => rfl, fun a b => ⟨fun none_ => App.joinExpiry_of_none none_ b, fun k start donor one joining => ?_⟩,
    fun n m a b => rfl, fun m a b h one => ⟨fun other => App.absenceAt_of_other other m b, fun seen member => ?_⟩,
    fun a b => ?_, fun a b => ?_⟩
  · have hk : k < 16 := Tbu.entry_lt (t := a.tbu) (by rw [joining]; nofun)
    rw [App.joinExpiry_of_joining one joining b]
    refine ⟨fun late => ?_, fun inTime => if_neg ((later_iff b (rotPlus start 8)).not.mpr inTime)⟩
    rw [if_pos ((later_iff b (rotPlus start 8)).mpr late)]
    exact takesOut_purge a k b hk
  · rw [App.absenceAt_of_member member m b]
    refine ⟨fun inTime => if_neg ((earlier_iff (rotPlus seen m) b).not.mpr (Nat.not_le.mpr inTime)), fun late => ?_⟩
    rw [if_pos ((earlier_iff (rotPlus seen m) b).mpr late)]
    exact takesOut_served a h b one (by rw [member]; rfl)
  · refine ⟨passRecords_eq _ _ _, congrArg (a.out ++ ·) (passOutcomes_eq _ _ _), rfl, fun inUse => ?_, rfl, rfl, rfl, rfl⟩
    have := passRecords_length_le a.touched b a.tbu.records
    show a.tbu.inUse - (a.tbu.records.length - (passRecords a.touched b a.tbu.records).length) = (passRecords _ _ _).length
    omega
  · intro late note done
    have isLapsed : late = lapsed b := funext fun c => (expired_eq b c.expiry).symm
    rw [isLapsed]
    exact ⟨App.lapseSteps_records a b, App.lapseSteps_out a b, rfl, rfl, rfl, App.lapseSteps_touched a b⟩

/-! ### The boundaries of a frame (R58, R59) -/

/-- The boundaries of a run, written as a walk over the rotations. -/
theorem App.boundaryRun_eq (n m : Nat) (last : Word32) (a : App) (k : Nat) : App.boundaryRun n m last k a
    = (List.range k).foldl (fun a i => a.boundary n m (last + BitVec.ofNat 32 (i + 1))) a := by
  induction k with
  | zero => rfl
  | succ k ih => rw [List.range_succ, List.foldl_append, ← ih]; rfl

theorem frameBoundaries_of_found {f : StreamFrame} (h : f.kind = .found) (n m : Nat) (t : Tbu) :
    frameBoundaries n m f t = t.begin := if_pos h

/-- Without a last applied boundary a frame brings none (log 20). -/
theorem frameBoundaries_of_none {t : Tbu} (h : t.lastApplied = none) (n m : Nat) (f : StreamFrame) :
    frameBoundaries n m f t = t.begin := by
  unfold frameBoundaries App.boundaries
  rw [show t.begin.tbu.lastApplied = none from h]
  exact ite_self _

/-- A frame whose rotation is not later than the last applied boundary brings none (R59). -/
theorem frameBoundaries_of_not_later {t : Tbu} {last : Word32} {f : StreamFrame} (h : t.lastApplied = some last)
    (old : later f.rotation last = false) (n m : Nat) : frameBoundaries n m f t = t.begin := by
  unfold frameBoundaries App.boundaries
  rw [show t.begin.tbu.lastApplied = some last from h]
  simp only [old, Bool.false_eq_true, if_false, ite_self]

/-- The boundaries up to a later rotation, which is then the last applied one (R59). -/
theorem frameBoundaries_of_later {t : Tbu} {last : Word32} {f : StreamFrame} (h : t.lastApplied = some last)
    (kind : f.kind ≠ .found) (new : later f.rotation last = true) (n m : Nat) :
    (frameBoundaries n m f t).out = (App.boundaryRun n m last (f.rotation - last).toNat t.begin).out
      ∧ (frameBoundaries n m f t).tbu
        = { (App.boundaryRun n m last (f.rotation - last).toNat t.begin).tbu with lastApplied := some f.rotation } := by
  unfold frameBoundaries App.boundaries
  rw [if_neg kind, show t.begin.tbu.lastApplied = some last from h]
  simp only [new, if_true, and_self]

/-- Settles O55: the four cases of `frameBoundaries`. -/
theorem boundariesRunThroughTheFramesRotation : Obligations.BoundariesRunThroughTheFramesRotation := by
  refine ⟨fun n m f t found => ?_, fun n m f t none_ => ?_, fun n m f t last applied => ⟨fun found => ?_, fun old => ?_,
    fun k kind rotation pos bound => ?_⟩⟩
  · rw [frameBoundaries_of_found found]
    exact ⟨rfl, rfl, by rw [frameEffect, found]; rfl⟩
  · rw [frameBoundaries_of_none none_]; exact ⟨rfl, rfl⟩
  · rw [frameBoundaries_of_found found]; exact ⟨rfl, rfl⟩
  · rw [frameBoundaries_of_not_later applied old]; exact ⟨rfl, rfl⟩
  · have distance : (f.rotation - last).toNat = k := by rw [rotation]; exact sub_of_rotPlus last bound
    have new : later f.rotation last = true := (later_iff _ _).mpr (by omega)
    have run := frameBoundaries_of_later applied kind new n m
    rw [distance, App.boundaryRun_eq] at run
    exact run

/-! ### LEAVE and JOIN (R52, R56) -/

/-- The JOIN of a station while another holds the slot is ignored (R52). -/
theorem Tbu.joinDonor_of_taken {t : Tbu} {n j k : Nat} (one : OneJoiner t) (ne : k ≠ j)
    (h : (t.entry k).isJoining = true) : t.joinDonor n j = none := by
  have taken := one.joiner_of_joining h
  rw [Tbu.joinDonor, taken]
  exact if_pos (by simpa using ne)

/-- With the slot free or its own, a JOIN looks for the first MEMBER after its station (R52). -/
theorem Tbu.joinDonor_of_free {t : Tbu} {n j : Nat} (h : t.joiner = none ∨ t.joiner = some j) : t.joinDonor n j
    = ((List.range (n - 1)).map (fun i => (j + 1 + i) % n)).find? (fun k => (t.entry k).isMember) := by
  refine if_neg ?_
  rcases h with h | h <;> simp [h]

/-- Only a station's own entry JOINING leaves it the slot. -/
theorem Tbu.joiner_of_others {t : Tbu} {j : Nat} (h : ∀ k, k ≠ j → (t.entry k).isJoining = false) :
    t.joiner = none ∨ t.joiner = some j := by
  cases hj : t.joiner with
  | none => exact .inl rfl
  | some k =>
    have := List.find?_some hj
    by_cases e : k = j
    · exact .inr (by rw [e])
    · rw [h k e] at this; cases this

/-- No MEMBER but the station itself leaves its JOIN without a donor. -/
theorem Tbu.joinDonor_of_alone {t : Tbu} {n j : Nat} (hj : j < n)
    (h : ∀ k, k < n → k ≠ j → (t.entry k).isMember = false) : t.joinDonor n j = none := by
  unfold Tbu.joinDonor
  split
  · rfl
  · refine List.find?_eq_none.mpr fun k hk => ?_
    obtain ⟨i, hi, rfl⟩ := List.mem_map.mp hk
    have hi := List.mem_range.mp hi
    have lt : (j + 1 + i) % n < n := Nat.mod_lt _ (by omega)
    have ne : (j + 1 + i) % n ≠ j := by
      by_cases wrap : j + 1 + i < n
      · rw [Nat.mod_eq_of_lt wrap]; omega
      · rw [Nat.mod_eq_sub_mod (by omega), Nat.mod_eq_of_lt (by omega)]; omega
    simp [h _ lt ne]

/-- The first MEMBER after a station in turn order is the donor of its JOIN (R52). -/
theorem Tbu.joinDonor_of_first {t : Tbu} {n j i : Nat} (slot : t.joiner = none ∨ t.joiner = some j) (pos : 1 ≤ i)
    (hi : i < n) (member : (t.entry ((j + i) % n)).isMember = true)
    (first : ∀ i', 1 ≤ i' → i' < i → (t.entry ((j + i') % n)).isMember = false) :
    t.joinDonor n j = some ((j + i) % n) := by
  rw [Tbu.joinDonor_of_free slot, List.find?_map, Option.map_eq_some_iff]
  refine ⟨i - 1, List.find?_range_eq_some.mpr ⟨?_, by simp; omega, fun l hl => ?_⟩, by congr 1; omega⟩
  · show (t.entry ((j + 1 + (i - 1)) % n)).isMember = true
    rw [show j + 1 + (i - 1) = j + i by omega]
    exact member
  · show (!(t.entry ((j + 1 + l) % n)).isMember) = true
    rw [show j + 1 + l = j + (l + 1) by omega, first (l + 1) (by omega) (by omega)]
    rfl

/-- Settles O56: LEAVE is `takesOut_served` with the passes behind it, and JOIN is what `joinDonor` finds. -/
theorem committedJoinNamesTheNextMember : Obligations.CommittedJoinNamesTheNextMember := by
  refine ⟨fun n f a => ⟨fun kind => by rw [frameEffect, kind], fun kind => by rw [frameEffect, kind], fun kind => ?_⟩,
    fun n j r a hj hn => ⟨fun k ne joining one => ?_, fun alone => ?_, fun i others pos hi member first => ?_⟩⟩
  · have leave : frameEffect n f a = a.leaveEffect f.sender f.rotation := by rw [frameEffect, kind]
    refine ⟨fun other => ?_, fun member one => ?_⟩
    · rw [leave, App.leaveEffect, other]; rfl
    · rw [leave, App.leaveEffect, if_pos member]
      obtain ⟨served, unserved⟩ := takesOut_served a f.sender f.rotation one member
      exact ⟨fun k start joining => ⟨_, served k start joining, rfl⟩, fun none_ => ⟨_, unserved none_, rfl⟩⟩
  · rw [App.joinEffect, Tbu.joinDonor_of_taken one ne joining]
  · rw [App.joinEffect, Tbu.joinDonor_of_alone hj alone]
  · rw [App.joinEffect, Tbu.joinDonor_of_first (Tbu.joiner_of_others others) pos hi member first]
    rfl

end Sys2Proof.Machine
end

section
/-! PROOFS. The step, and what every command keeps: the clock, the waiting commands, the strap number, the configuration and
the rotation latch (R140, R141, R181). -/

namespace Sys2Proof.Machine

/-! ### The step -/

/-- Settles O1: the step is defined by the front of the queue. -/
theorem stepRunsTheFrontCommand : Obligations.StepRunsTheFrontCommand := by
  intro c rest s front
  rw [step, front]; rfl

/-- Settles O2: an empty queue is one bit time of `State.idle`. -/
theorem emptyQueueLetsOneBitTimePass : Obligations.EmptyQueueLetsOneBitTimePass := by
  intro s empty
  have idle : step s = .next s.idle := by rw [step, empty]
  refine ⟨fun notQuiet => ?_, fun quiet => ?_⟩
  · rw [idle, State.idle, if_neg notQuiet]
  · rw [idle, State.idle, if_pos quiet]; rfl

/-- With RESET released a command held off by RESET is taken. -/
theorem next_of_released {s : State} (released : s.pins.resetLow = false) (t : State) :
    (.next (s.unlessHeld t) : Host.Outcome State Fault Refusal) = .next t :=
  congrArg Host.Outcome.next (State.unlessHeld_released t released)

/-- A command held off by RESET is taken, or changes nothing. -/
theorem State.unlessHeld_cases (s t : State) : s.unlessHeld t = t ∨ s.unlessHeld t = s := by
  unfold State.unlessHeld; split
  · exact .inr rfl
  · exact .inl rfl

/-! ### Steady work -/

/-- `t` comes from `s` by a command that changes neither the clock, the waiting commands, the strap number, the
configuration nor the rotation latch. -/
structure Steady (s t : State) : Prop where
  clock : t.clock = s.clock
  pending : t.pending = s.pending
  strap : t.stc.strap = s.stc.strap
  config : t.stc.config = s.stc.config
  latch : t.lpt.latch = s.lpt.latch

theorem Steady.refl (s : State) : Steady s s := ⟨rfl, rfl, rfl, rfl, rfl⟩

theorem Steady.unlessHeld {s t : State} (h : Steady s t) : Steady s (s.unlessHeld t) := by
  rcases s.unlessHeld_cases t with e | e <;> rw [e]
  · exact h
  · exact Steady.refl s

theorem Inside.steady {s t : State} (h : Inside s t) : Steady s t :=
  ⟨h.clock, h.pending, h.strap, h.config, congrArg Lpt.latch h.lpt⟩

section
variable (s : State)

theorem Steady.answer (code : Word16) (r : Result) : Steady s (s.answer code r) := ⟨rfl, rfl, rfl, rfl, rfl⟩

theorem Steady.hostEnable : Steady s s.hostEnable := by
  unfold State.hostEnable
  split
  case h_1 => split <;> exact ⟨rfl, rfl, rfl, rfl, rfl⟩
  all_goals exact ⟨rfl, rfl, rfl, rfl, rfl⟩

theorem Steady.hostLeave : Steady s s.hostLeave := by
  unfold State.hostLeave; split <;> exact ⟨rfl, rfl, rfl, rfl, rfl⟩

theorem Steady.hostDisable : Steady s s.hostDisable := by
  unfold State.hostDisable
  split
  · exact Steady.answer s _ _
  · constructor <;> simp [State.disableTaken]

theorem Steady.hostPost : Steady s s.hostPost := by
  unfold State.hostPost; split <;> exact ⟨rfl, rfl, rfl, rfl, rfl⟩

theorem Steady.hostCancel : Steady s s.hostCancel := by
  simp only [State.hostCancel]
  split
  · exact ⟨rfl, rfl, rfl, rfl, rfl⟩
  · split <;> exact Steady.answer s _ _

theorem Steady.hostPop : Steady s s.hostPop := by
  unfold State.hostPop; split <;> exact ⟨rfl, rfl, rfl, rfl, rfl⟩

theorem Steady.hostClearLost : Steady s s.hostClearLost := ⟨rfl, rfl, rfl, rfl, rfl⟩

theorem Steady.hostInquire : Steady s s.hostInquire := by
  unfold State.hostInquire
  split
  · split <;> exact ⟨rfl, rfl, rfl, rfl, rfl⟩
  · exact Steady.answer s _ _

/-- A write to CMD does steady work, or it is PORT RESET's code (R183). -/
theorem Steady.hostCommand (code : Word16) :
    Steady s (s.hostCommand code) ∨ (isCommandCode code = true ∧ s.hostCommand code = s.hostPortReset) := by
  unfold State.hostCommand
  split_ifs with enable leave disable reset post cancel pop clear inquire
  · exact .inl (Steady.hostEnable s)
  · exact .inl (Steady.hostLeave s)
  · exact .inl (Steady.hostDisable s)
  · exact .inr ⟨by rw [reset]; decide, rfl⟩
  · exact .inl (Steady.hostPost s)
  · exact .inl (Steady.hostCancel s)
  · exact .inl (Steady.hostPop s)
  · exact .inl (Steady.hostClearLost s)
  · exact .inl (Steady.hostInquire s)
  · exact .inl ⟨rfl, rfl, rfl, rfl, rfl⟩

theorem Steady.store (a : Nat) (w : Word16) : Steady s (s.setLpt (s.lpt.store a w)) := by
  refine ⟨rfl, rfl, rfl, rfl, ?_⟩
  show (s.lpt.store a w).latch = _
  unfold Lpt.store
  split_ifs <;> rfl

end

/-- What a command does beside steady work: the read of ROTHI, PORT RESET, a write of CONFIG, and the pin reset. An
ill-formed command does what the bus write would do (log 21). -/
inductive Unsteady (c : Instr) (s : State) : State → Prop
  | rotHi : c = .rothiRead → Unsteady c s (s.unlessHeld s.readRotHi)
  | portReset : c = .portReset ∨ c.wellFormed = false → Unsteady c s (s.unlessHeld s.hostPortReset)
  | config (w : Word16) : c = .configWrite w ∨ c.wellFormed = false → Unsteady c s (s.unlessHeld (s.writeConfig w))
  | pinReset (sn : BitVec 4) : c = .pinReset sn → Unsteady c s (s.pinResetLow sn)

/-- Every command does steady work, or one of the four other things. -/
theorem exec_steady {c : Instr} {s t : State} (h : exec c s = .next t) : Steady s t ∨ Unsteady c s t := by
  cases c with
  | enable => cases h; exact .inl (Steady.hostEnable s).unlessHeld
  | leave => cases h; exact .inl (Steady.hostLeave s).unlessHeld
  | disable => cases h; exact .inl (Steady.hostDisable s).unlessHeld
  | portReset => cases h; exact .inr (.portReset (.inl rfl))
  | post => cases h; exact .inl (Steady.hostPost s).unlessHeld
  | cancel => cases h; exact .inl (Steady.hostCancel s).unlessHeld
  | pop => cases h; exact .inl (Steady.hostPop s).unlessHeld
  | clearLost => cases h; exact .inl (Steady.hostClearLost s).unlessHeld
  | inquire => cases h; exact .inl (Steady.hostInquire s).unlessHeld
  | badCmd code =>
    cases h
    rcases Steady.hostCommand s code with steady | ⟨isCode, e⟩
    · exact .inl steady.unlessHeld
    · rw [e]; exact .inr (.portReset (.inr (by rw [Instr.wellFormed, isCode]; rfl)))
  | rothiRead => cases h; exact .inr (.rotHi rfl)
  | configWrite w => cases h; exact .inr (.config w (.inl rfl))
  | irqenWrite w => cases h; exact .inl (Steady.unlessHeld ⟨rfl, rfl, rfl, rfl, rfl⟩)
  | registerWrite a w =>
    cases h
    unfold State.busWrite
    split_ifs with config irqen cmd
    · have isConfig : a = 0x00#5 := BitVec.eq_of_toNat_eq config
      exact .inr (.config w (.inr (by rw [isConfig]; rfl)))
    · exact .inl (Steady.unlessHeld ⟨rfl, rfl, rfl, rfl, rfl⟩)
    · have isCmd : a = 0x06#5 := BitVec.eq_of_toNat_eq cmd
      rcases Steady.hostCommand s w with steady | ⟨-, e⟩
      · exact .inl steady.unlessHeld
      · rw [e]; exact .inr (.portReset (.inr (by rw [isCmd]; rfl)))
    · exact .inl (Steady.store s _ w).unlessHeld
  | pinReset sn => cases h; exact .inr (.pinReset sn rfl)
  | activityBegins => exact .inl (Inside.execActivityBegins h).steady
  | itemDelivery => exact .inl (Inside.execItemDelivery h).steady
  | skipPoint => exact .inl (Inside.execSkipPoint h).steady
  | listenWindowExpiry => exact .inl (Inside.execListenWindowExpiry h).steady
  | frameStart => exact .inl (Inside.execFrameStart h).steady
  | transmissionEnd => exact .inl (Inside.execTransmissionEnd h).steady
  | loopbackMismatch => exact .inl (Inside.execLoopbackMismatch h).steady
  | alignmentLoss => exact .inl (Inside.execAlignmentLoss h).steady
  | joinStall => exact .inl (Inside.execJoinStall h).steady
  | replayEntry => exact .inl (Inside.execReplayEntry h).steady
  | activityStops bits => exact .inl (Inside.execActivityStops h).steady
  | resetRelease => cases h; exact .inl ⟨rfl, rfl, rfl, rfl, rfl⟩

/-- A command answers a next state, whatever the state. -/
theorem exec_total (c : Instr) (s : State) : ∃ t, exec c s = .next t := by
  cases c <;> exact ⟨_, rfl⟩

@[simp] theorem State.hostPortReset_clock (s : State) : s.hostPortReset.clock = s.clock := by
  simp [State.hostPortReset, State.resetBlocks]

@[simp] theorem State.hostPortReset_pending (s : State) : s.hostPortReset.pending = s.pending := by
  simp [State.hostPortReset, State.resetBlocks]

@[simp] theorem State.hostPortReset_stc (s : State) :
    s.hostPortReset.stc = { s.stc with station := .halted, leave := .idle } := by
  simp [State.hostPortReset, State.resetBlocks]

@[simp] theorem State.pinResetLow_clock (s : State) (sn : BitVec 4) : (s.pinResetLow sn).clock = s.clock := by
  simp [State.pinResetLow, State.resetBlocks]

@[simp] theorem State.pinResetLow_pending (s : State) (sn : BitVec 4) : (s.pinResetLow sn).pending = s.pending := by
  simp [State.pinResetLow, State.resetBlocks]

/-- A write of CONFIG touches the configuration and the write-ignored flag alone (R182). -/
theorem State.writeConfig_cases (s : State) (w : Word16) :
    (s.stc.station = .halted ∧ s.writeConfig w
        = (s.setStc { s.stc with config := configOf w }).setLpt { s.lpt with writeIgnored := false })
      ∨ (s.stc.station ≠ .halted ∧ s.writeConfig w = s.setLpt { s.lpt with writeIgnored := true }) := by
  unfold State.writeConfig
  split
  next h => exact .inl ⟨h, rfl⟩
  next h => exact .inr ⟨h, rfl⟩

/-- The clock and the waiting commands stand in every command. -/
theorem exec_clock_pending {c : Instr} {s t : State} (h : exec c s = .next t) :
    t.pending = s.pending ∧ t.clock = s.clock := by
  rcases exec_steady h with steady | ⟨-⟩ | ⟨-⟩ | ⟨w, -⟩ | ⟨sn, -⟩
  · exact ⟨steady.pending, steady.clock⟩
  · rcases s.unlessHeld_cases s.readRotHi with e | e <;> rw [e] <;> exact ⟨rfl, rfl⟩
  · rcases s.unlessHeld_cases s.hostPortReset with e | e <;> rw [e] <;> simp
  · rcases s.unlessHeld_cases (s.writeConfig w) with e | e <;> rw [e]
    · rcases s.writeConfig_cases w with ⟨-, e⟩ | ⟨-, e⟩ <;> rw [e] <;> exact ⟨rfl, rfl⟩
    · exact ⟨rfl, rfl⟩
  · simp

/-- Settles O3: `exec` is total, and `exec_clock_pending`. -/
theorem noCommandStopsTheStation : Obligations.NoCommandStopsTheStation := fun c s =>
  let ⟨t, h⟩ := exec_total c s
  ⟨t, h, exec_clock_pending h⟩

/-- Settles O20: of the unsteady work only a write of CONFIG in HALTED and the pin reset reach the configuration, and only the
latter the strap number. -/
theorem configurationAndStrapAreHeld : Obligations.ConfigurationAndStrapAreHeld := by
  intro c s t wf run notPinReset
  rcases exec_steady run with steady | ⟨-⟩ | ⟨-⟩ | ⟨w, isConfig⟩ | ⟨sn, isPinReset⟩
  · exact ⟨steady.strap, fun _ => steady.config⟩
  · rcases s.unlessHeld_cases s.readRotHi with e | e <;> rw [e] <;> exact ⟨rfl, fun _ => rfl⟩
  · rcases s.unlessHeld_cases s.hostPortReset with e | e <;> rw [e] <;> simp
  · have isWrite : c = .configWrite w := isConfig.resolve_right (by simp [wf])
    rcases s.unlessHeld_cases (s.writeConfig w) with e | e <;> rw [e]
    · rcases s.writeConfig_cases w with ⟨halted, e⟩ | ⟨-, e⟩ <;> rw [e]
      · exact ⟨rfl, fun other => absurd isWrite (other.resolve_right (not_not.mpr halted) w)⟩
      · exact ⟨rfl, fun _ => rfl⟩
    · exact ⟨rfl, fun _ => rfl⟩
  · exact absurd isPinReset (notPinReset sn)

/-! ### The read of ROTHI (R181) -/

/-- The two halves of a rotation number make it whole. -/
theorem upper_append_lower (r : Word32) : upper r ++ lower r = r := by
  unfold upper lower
  ext i hi
  simp only [BitVec.getElem_append, BitVec.getElem_extractLsb', Nat.zero_add]
  split
  · rfl
  · rw [Nat.add_sub_cancel' (by omega)]; rfl

/-- A read cycle drives the word of its address (R180). -/
theorem State.drives_of_read {s : State} {c : BusCycle} (released : s.pins.resetLow = false) (read : c.isRead = true) :
    s.drives c = some (s.readWord c.addr) := by
  rw [State.drives, read, released]; rfl

/-- A read cycle is a command for ROTHI alone (R180, R181). -/
theorem BusCycle.command_of_read {c : BusCycle} (read : c.isRead = true) :
    c.command = if c.addr = 0x04 then some .rothiRead else none := by
  have notWrite : c.isWrite = false := by
    simp only [BusCycle.isRead, Bool.and_eq_true, Bool.not_eq_true'] at read
    rw [BusCycle.isWrite, read.2, Bool.and_false, Bool.false_and]
  rw [BusCycle.command, notWrite, read]
  by_cases h : c.addr = 0x04 <;> simp [h]

/-- Settles O8: the read is `readRotHi`; of the unsteady work only it, PORT RESET and the pin reset reach the latch. -/
theorem rothiReadLatchesTheLowerHalf : Obligations.RothiReadLatchesTheLowerHalf := by
  have rothi : ∀ {s : State}, s.pins.resetLow = false → exec .rothiRead s = .next s.readRotHi := fun released =>
    next_of_released released _
  refine ⟨fun s released => rothi released, fun s t c d released readC addrC readD addrD run => ?_, fun s => rfl,
    fun s sn => ⟨_, rfl, rfl⟩, fun s released => ⟨_, exec_portReset_of_released released, rfl⟩,
    fun c s t wf notRotHi notPortReset notPinReset run => ?_⟩
  · rw [rothi released] at run
    obtain rfl := Host.Outcome.next.inj run
    refine ⟨by rw [BusCycle.command_of_read readC, if_pos addrC],
      by rw [BusCycle.command_of_read readD, addrD]; rfl, upper s.trk.rotation, lower s.trk.rotation, ?_, rfl, ?_,
      upper_append_lower _⟩
    · rw [State.drives_of_read released readC, addrC]; rfl
    · rw [State.drives_of_read (s := s.readRotHi) released readD, addrD]; rfl
  · rcases exec_steady run with steady | ⟨isRotHi⟩ | ⟨isPortReset⟩ | ⟨w, -⟩ | ⟨sn, isPinReset⟩
    · exact steady.latch
    · exact absurd isRotHi notRotHi
    · exact absurd (isPortReset.resolve_right (by simp [wf])) notPortReset
    · rcases s.unlessHeld_cases (s.writeConfig w) with e | e <;> rw [e]
      rcases s.writeConfig_cases w with ⟨-, e⟩ | ⟨-, e⟩ <;> rw [e] <;> rfl
    · exact absurd isPinReset (notPinReset sn)

end Sys2Proof.Machine
end

section
/-! PROOFS. The words of the register map, field by field, and the commands that read and write them (R180 to R185). -/

namespace Sys2Proof.Machine

/-! ### Fields of a word -/

section
variable (y : Word16) {k lo len : Nat}

/-- A field of a word put together by `|||` is put together of the fields. -/
theorem field_or (x : Word16) : (x ||| y).extractLsb' lo len = x.extractLsb' lo len ||| y.extractLsb' lo len := by
  ext i; simp

/-- A field where a value was shifted to. -/
theorem field_shift (h : k + len ≤ 16) : (y <<< k).extractLsb' k len = y.setWidth len := by
  ext i hi
  simp only [BitVec.getElem_extractLsb', BitVec.getLsbD_shiftLeft, BitVec.getElem_setWidth]
  simp [show k + i < 16 by omega]

/-- A field below where a value was shifted to. -/
theorem field_below (h : lo + len ≤ k) : (y <<< k).extractLsb' lo len = 0#len := by
  ext i hi
  simp only [BitVec.getElem_extractLsb', BitVec.getLsbD_shiftLeft]
  simp [show lo + i < k by omega]

/-- A field above every bit of a value. -/
theorem field_above (h : y.toNat < 2 ^ lo) : y.extractLsb' lo len = 0#len := by
  apply BitVec.eq_of_toNat_eq
  rw [BitVec.extractLsb'_toNat, Nat.shiftRight_eq_div_pow, Nat.div_eq_of_lt h]
  simp

/-- A field above every bit of a shifted value. -/
theorem field_shift_above (hk : k ≤ lo) (h : y.toNat < 2 ^ (lo - k)) : (y <<< k).extractLsb' lo len = 0#len := by
  refine field_above _ (lt_of_le_of_lt ((BitVec.toNat_shiftLeft ..).trans_le (Nat.mod_le _ _)) ?_)
  rw [Nat.shiftLeft_eq]
  calc y.toNat * 2 ^ k < 2 ^ (lo - k) * 2 ^ k := Nat.mul_lt_mul_of_pos_right h (by positivity)
    _ = 2 ^ lo := by rw [← pow_add, Nat.sub_add_cancel hk]

end

/-- The field at bit 0. -/
theorem field_zero (y : Word16) (len : Nat) : y.extractLsb' 0 len = y.setWidth len := by
  ext i hi; simp

/-- A narrow value widened and taken back. -/
theorem setWidth_field {len : Nat} (x : BitVec len) (h : len ≤ 16) : (x.setWidth 16).setWidth len = x := by
  rw [BitVec.setWidth_setWidth_of_le _ h, BitVec.setWidth_eq]

/-! ### CONFIG, STATUS and the other words (R182, R183) -/

theorem ofNat16_toNat {k : Nat} (h : k < 65536) : (BitVec.ofNat 16 k).toNat = k := by
  rw [BitVec.toNat_ofNat]; exact Nat.mod_eq_of_lt h

theorem setWidth_toNat_lt {len : Nat} (x : BitVec len) (m : Nat) : (x.setWidth m).toNat < 2 ^ len :=
  lt_of_le_of_lt ((BitVec.toNat_setWidth ..).trans_le (Nat.mod_le _ _)) x.isLt

theorem configWord_fields (c : ConfigCopy) : (configWord c).extractLsb' 0 5 = c.n
    ∧ (configWord c).extractLsb' 8 2 = c.rate ∧ (configWord c).extractLsb' 12 3 = c.m := by
  have n : (c.n.setWidth 16).toNat < 2 ^ 8 := (setWidth_toNat_lt c.n 16).trans (by decide)
  have n' : (c.n.setWidth 16).toNat < 2 ^ 12 := n.trans (by decide)
  have rate : (c.rate.setWidth 16).toNat < 2 ^ (12 - 8) := (setWidth_toNat_lt c.rate 16).trans (by decide)
  refine ⟨?_, ?_, ?_⟩ <;> simp only [configWord, field_or]
  · rw [field_zero, setWidth_field _ (by decide), field_below _ (by decide), field_below _ (by decide)]; simp
  · rw [field_above _ n, field_shift _ (by decide), setWidth_field _ (by decide), field_below _ (by decide)]; simp
  · rw [field_above _ n', field_shift_above _ (by decide) rate, field_shift _ (by decide),
      setWidth_field _ (by decide)]; simp

theorem bitAt_getLsbD (b : Bool) (i : Nat) {j : Nat} (h : j < 16) : (bitAt b i).getLsbD j = (b && decide (j = i)) := by
  cases b with
  | false => simp [bitAt]
  | true =>
    rw [bitAt, if_pos rfl, BitVec.natCast_eq_ofNat, BitVec.getLsbD_ofNat, Nat.one_shiftLeft, Nat.testBit_two_pow]
    simp [h, eq_comm]

theorem bitAt_field (b : Bool) {i len : Nat} (h : len ≤ i) (hlen : len ≤ 16) : (bitAt b i).extractLsb' 0 len = 0 := by
  ext k hk
  rw [BitVec.getElem_extractLsb', bitAt_getLsbD b i (by omega), decide_eq_false (by omega)]
  simp

/-- A code of `len` bits has no bit beyond them. -/
theorem getLsbD_of_lt {y : Word16} {len j : Nat} (h : y.toNat < 2 ^ len) (hj : len ≤ j) : y.getLsbD j = false :=
  Nat.testBit_lt_two_pow (lt_of_lt_of_le h (Nat.pow_le_pow_right (by decide) hj))

theorem StationState.code_lt (st : StationState) : st.code.toNat < 2 ^ 3 := by
  cases st <;> decide

/-- STATUS by its fields (R182). -/
theorem State.statusWord_fields (s : State) : s.statusWord.extractLsb' 0 3 = s.stc.station.code.setWidth 3
    ∧ s.statusWord.getLsbD 4 = s.trk.aligned ∧ s.statusWord.getLsbD 5 = s.lpt.writeIgnored
    ∧ s.statusWord.getLsbD 6 = s.ntq.overflow := by
  have bit : ∀ j, 3 ≤ j → j < 16 → s.statusWord.getLsbD j = ((s.trk.aligned && decide (j = 4))
      || (s.lpt.writeIgnored && decide (j = 5)) || (s.ntq.overflow && decide (j = 6))) := fun j hj hj' => by
    simp only [State.statusWord, BitVec.getLsbD_or, bitAt_getLsbD _ _ hj', getLsbD_of_lt s.stc.station.code_lt hj,
      Bool.false_or]
  refine ⟨?_, by rw [bit 4 (by decide) (by decide)]; simp, by rw [bit 5 (by decide) (by decide)]; simp,
    by rw [bit 6 (by decide) (by decide)]; simp⟩
  rw [State.statusWord, field_or, field_or, field_or, field_zero, bitAt_field _ (by decide) (by decide),
    bitAt_field _ (by decide) (by decide), bitAt_field _ (by decide) (by decide)]
  simp

/-- The two interrupt enables as IRQEN reads (R182). -/
theorem irqenWord_bits (a b : Bool) :
    (bitAt a 0 ||| bitAt b 1).getLsbD 0 = a ∧ (bitAt a 0 ||| bitAt b 1).getLsbD 1 = b := by
  simp only [BitVec.getLsbD_or, bitAt_getLsbD _ _ (show 0 < 16 by decide), bitAt_getLsbD _ _ (show 1 < 16 by decide)]
  simp

/-! ### The head-of-queue words (R184) -/

theorem NoteKind.code_lt (k : NoteKind) : k.code.toNat < 2 ^ 5 := by
  cases k <;> decide

theorem modeCode_lt (m : Option Mode) : (modeCode m).toNat < 2 ^ 2 := by
  rcases m with _ | _ | _ <;> decide

theorem StateReason.code_lt (w : StateReason) : w.code.toNat < 2 ^ 4 := by
  cases w <;> decide

theorem failureCode_lt (f : Option JoinFailure) : (failureCode f).toNat < 2 ^ 3 := by
  rcases f with _ | _ | _ | _ | _ <;> decide

/-- The tag-present bit of HEAD0. -/
def tagBit (b : Bool) : Word16 := ((if b then 0x80 else 0 : Nat) : Word16)

theorem head0_eq (n : Note) : head0 n = n.kind.code ||| ((modeCode n.mode).setWidth 16 <<< 5) ||| tagBit n.tag.isSome
    ||| ((n.tag.getD 0).setWidth 16 <<< 8) := rfl

theorem tagBit_fields (b : Bool) : (tagBit b).extractLsb' 0 5 = 0 ∧ (tagBit b).extractLsb' 5 2 = 0
    ∧ (tagBit b).extractLsb' 8 8 = 0 ∧ (tagBit b).getLsbD 7 = b := by
  cases b <;> decide

/-- HEAD0 by its fields (R184). -/
theorem head0_fields (n : Note) : (head0 n).extractLsb' 0 5 = n.kind.code.setWidth 5
    ∧ (head0 n).extractLsb' 5 2 = (modeCode n.mode).setWidth 2 ∧ (head0 n).getLsbD 7 = n.tag.isSome
    ∧ (head0 n).extractLsb' 8 8 = n.tag.getD 0 := by
  obtain ⟨tag0, tag5, tag8, tag7⟩ := tagBit_fields n.tag.isSome
  have kind : n.kind.code.toNat < 2 ^ 8 := n.kind.code_lt.trans (by decide)
  have mode : ((modeCode n.mode).setWidth 16).toNat < 2 ^ 2 := by
    rw [BitVec.toNat_setWidth_of_le (by decide)]; exact modeCode_lt n.mode
  have mode' : ((modeCode n.mode).setWidth 16).toNat < 2 ^ (8 - 5) := mode.trans (by decide)
  refine ⟨?_, ?_, ?_, ?_⟩ <;> rw [head0_eq]
  · rw [field_or, field_or, field_or, field_zero, field_below _ (by decide), tag0, field_below _ (by decide)]; simp
  · rw [field_or, field_or, field_or, field_above _ n.kind.code_lt, field_shift _ (by decide), tag5,
      field_below _ (by decide), BitVec.setWidth_setWidth_of_le _ (by decide)]; simp
  · rw [BitVec.getLsbD_or, BitVec.getLsbD_or, BitVec.getLsbD_or, getLsbD_of_lt n.kind.code_lt (by decide), tag7,
      BitVec.getLsbD_shiftLeft, BitVec.getLsbD_shiftLeft, getLsbD_of_lt mode (by decide)]; simp
  · rw [field_or, field_or, field_or, field_above _ kind, field_shift_above _ (by decide) mode', tag8,
      field_shift _ (by decide), setWidth_field _ (by decide)]; simp

/-- HEAD4 of a STATE record by its fields (11.4). -/
theorem stateWord_fields (r : Word32) (st : StationState) (w : StateReason) (f : Option JoinFailure) :
    (detailWord r (.state st w f)).extractLsb' 0 3 = st.code.setWidth 3
      ∧ (detailWord r (.state st w f)).extractLsb' 4 4 = w.code.setWidth 4
      ∧ (detailWord r (.state st w f)).extractLsb' 8 3 = (failureCode f).setWidth 3 := by
  have st4 : st.code.toNat < 2 ^ 4 := st.code_lt.trans (by decide)
  have st8 : st.code.toNat < 2 ^ 8 := st.code_lt.trans (by decide)
  refine ⟨?_, ?_, ?_⟩ <;> rw [detailWord, field_or, field_or]
  · rw [field_zero, field_below _ (by decide), field_below _ (by decide)]; simp
  · rw [field_above _ st4, field_shift _ (by decide), field_below _ (by decide)]; simp
  · rw [field_above _ st8, field_shift_above _ (by decide) w.code_lt, field_shift _ (by decide)]; simp

/-- HEAD4 of a FOREIGN record with a byte: its code and the byte (11.4). -/
theorem foreignWord_fields {code : Word16} (b : Byte) (low : code.extractLsb' 0 8 = 0) :
    (code ||| b.setWidth 16).extractLsb' 8 2 = code.extractLsb' 8 2 ∧ (code ||| b.setWidth 16).extractLsb' 0 8 = b := by
  have byte : (b.setWidth 16).toNat < 2 ^ 8 := setWidth_toNat_lt b 16
  constructor
  · rw [field_or, field_above _ byte]; simp
  · rw [field_or, low, field_zero, setWidth_field _ (by decide)]; simp

/-- An offset of 16 bits reads back the expiry (11.4). -/
theorem rotation_add_offset {e r : Word32} (h : (e - r).toNat < 65536) :
    r + ((e - r).setWidth 16).setWidth 32 = e := by
  have offset : ((e - r).setWidth 16).setWidth 32 = e - r := by
    apply BitVec.eq_of_toNat_eq
    rw [BitVec.toNat_setWidth_of_le (by decide), BitVec.toNat_setWidth, Nat.mod_eq_of_lt h]
  rw [offset, BitVec.add_comm, BitVec.sub_add_cancel]

/-- Settles O4: POP by its two cases, and the words of the queue by their fields. -/
theorem popTakesTheHeadRecord : Obligations.PopTakesTheHeadRecord := by
  refine ⟨fun s n rest released queue => ?_, fun s released queue => ?_, fun s n released queue => ⟨?_, ?_⟩,
    fun s none => ?_, fun s n head => ?_, fun s => ⟨fun places => ?_, fun places => ?_⟩⟩
  · rw [exec_pop_of_released released, State.hostPop_of_cons queue]; rfl
  · rw [exec_pop_of_released released, State.hostPop_of_empty queue]; rfl
  · refine ⟨_, exec_pop_of_released released, ?_⟩
    rw [State.hostPop_of_empty queue]
    exact ⟨rfl, by rw [State.offer_ntq, State.answer_ntq, Ntq.offer_room n (by simp [queue]), queue]; rfl⟩
  · have offered : (s.offer n).ntq.queue = n :: [] := by
      rw [State.offer_ntq, Ntq.offer_room n (by simp [queue]), queue]; rfl
    refine ⟨_, exec_pop_of_released (s := s.offer n) released, ?_⟩
    rw [State.hostPop_of_cons offered]
    exact ⟨rfl, rfl, rfl⟩
  · have zero : ∀ i, headWord s.ntq.head i = 0 := fun i => by rw [none]; rfl
    simp only [List.forall_mem_cons, List.not_mem_nil, false_implies, implies_true, and_true]
    exact ⟨zero 0, zero 1, zero 2, zero 3, zero 4⟩
  · have word : ∀ i, headWord s.ntq.head i = headWord (some n) i := fun i => by rw [head]
    have head0 : s.readWord 0x0C = Sys2Proof.Machine.head0 n := word 0
    have head4 : s.readWord 0x10 = detailWord n.rotation n.detail := word 4
    obtain ⟨kind, mode, present, tag⟩ := head0_fields n
    rw [head0, head4, kind, mode, present, tag]
    refine ⟨by cases n.kind <;> rfl, by rcases n.mode with _ | _ | _ <;> rfl, rfl, rfl, word 1, ?_, ?_,
      fun e detail offset => ?_, fun k detail fits => ?_, fun why detail => ?_, fun st why f detail => ?_,
      fun c detail => ?_, fun d detail => ?_⟩
    · exact (congrArg₂ (· ++ ·) (word 2) (word 3)).trans (upper_append_lower n.rotation)
    · rintro (detail | detail) <;> rw [detail] <;> rfl
    · rw [detail]; exact rotation_add_offset offset
    · rw [detail]; exact ofNat16_toNat fits
    · rw [detail]; cases why <;> rfl
    · obtain ⟨state, reason, failure⟩ := stateWord_fields n.rotation st why f
      rw [detail, state, reason, failure]
      exact ⟨by cases st <;> rfl, by cases why <;> rfl, by rcases f with _ | _ | _ | _ | _ <;> rfl⟩
    · rw [detail]; cases c <;> rfl
    · rw [detail]
      cases d with
      | profile received => exact foreignWord_fields received rfl
      | found h => exact foreignWord_fields (byteOf h) rfl
      | duplicate => exact (by decide : ((3 <<< 8 : Nat) : Word16).extractLsb' 8 2 = 3
          ∧ ((3 <<< 8 : Nat) : Word16).extractLsb' 0 8 = 0)
  · show ((BitVec.ofNat 16 s.ntq.queue.length).extractLsb' 0 7).toNat = _
    rw [BitVec.extractLsb'_toNat, BitVec.toNat_ofNat]
    simp; omega
  · exact ofNat16_toNat (Nat.lt_succ_of_le places)

/-! ### Writes of CONFIG and IRQEN, and what the resets and DISABLE leave of them (R182) -/

/-- Settles O9: the words by their fields, and each command by the blocks it leaves. -/
theorem configurationWordsAndTheirResets : Obligations.ConfigurationWordsAndTheirResets := by
  refine ⟨fun s w released halted => ?_, fun s w released notHalted => ?_,
    fun s w released => exec_irqenWrite_of_released released w, fun s _ => ?_, fun s sn => ⟨_, rfl, rfl, rfl, rfl, rfl, rfl, rfl⟩,
    fun s released => ⟨_, exec_portReset_of_released released, s.hostPortReset_stc, rfl, rfl, rfl, rfl, rfl⟩,
    fun s released notHalted => ?_⟩
  · refine (next_of_released released _).trans ?_
    rw [State.writeConfig, if_pos halted]; rfl
  · refine (next_of_released released _).trans ?_
    rw [State.writeConfig, if_neg notHalted]; rfl
  · obtain ⟨state, aligned, ignored, overflow⟩ := s.statusWord_fields
    refine ⟨configWord_fields s.stc.config, irqenWord_bits _ _, rfl, ⟨state.trans ?_, aligned, ignored, overflow⟩, rfl, ?_⟩
    · cases s.stc.station <;> rfl
    · show s.lpt.result.code = _
      cases s.lpt.result <;> rfl
  · refine ⟨s.disableTaken.answer 3 .ok, (next_of_released released _).trans ?_, ?_, ?_, ?_, ?_, ?_, fun room => ?_⟩
    · rw [State.hostDisable, if_neg notHalted]
    · simp [State.disableTaken]
    · simp [State.disableTaken]
    · simp [State.disableTaken]
    · simp [State.disableTaken]
    · simp [State.disableTaken, Trk.cleared]
    · rw [State.answer_ntq, State.disableTaken_ntq,
        ← List.foldl_concat (f := Ntq.offer), Ntq.offerAll_room _ (by simp; omega)]

/-! ### Bus cycles (R180) -/

/-- An address by its number. -/
theorem addr_iff (a b : BitVec 5) {k : Nat} (h : b.toNat = k) : a.toNat = k ↔ a = b :=
  ⟨fun e => BitVec.eq_of_toNat_eq (e.trans h.symm), fun e => e ▸ h⟩

/-- A write of a word without behaviour of its own (R180, R183). -/
theorem State.busWrite_plain (s : State) {a : BitVec 5} (w : Word16) (h0 : a ≠ 0x00) (h1 : a ≠ 0x01) (h6 : a ≠ 0x06) :
    s.busWrite a w = s.setLpt (s.lpt.store a.toNat w) := by
  simp only [State.busWrite, addr_iff a (k := 0x00) 0x00 rfl, addr_iff a (k := 0x01) 0x01 rfl,
    addr_iff a (k := 0x06) 0x06 rfl, h0, h1, h6, if_false]

/-- A store puts the word into the one of the five host words that the address names (R184). -/
theorem Lpt.store_eq (p : Lpt) (a : BitVec 5) (w : Word16) : p.store a.toNat w = { p with
    stage0 := if a = 0x08 then w else p.stage0
    stage1 := if a = 0x09 then w else p.stage1
    stage2 := if a = 0x0A then w else p.stage2
    stage3 := if a = 0x0B then w else p.stage3
    inqKey := if a = 0x13 then w else p.inqKey } := by
  simp only [Lpt.store, addr_iff a (k := 0x08) 0x08 rfl, addr_iff a (k := 0x09) 0x09 rfl, addr_iff a (k := 0x0A) 0x0A rfl,
    addr_iff a (k := 0x0B) 0x0B rfl, addr_iff a (k := 0x13) 0x13 rfl]
  split_ifs with h8 h9 hA hB h13 <;> simp_all

/-- A cycle that is a write: CS and WR low, RD high (R180). -/
theorem BusCycle.isWrite_of {c : BusCycle} (cs : c.cs = true) (wr : c.wr = true) (rd : c.rd = false) :
    c.isWrite = true ∧ c.isRead = false := by
  simp [BusCycle.isWrite, BusCycle.isRead, cs, wr, rd]

/-- A cycle that is neither a read nor a write (R180). -/
theorem BusCycle.idle_of {c : BusCycle} (h : c.cs = false ∨ c.rd = c.wr) : c.isWrite = false ∧ c.isRead = false := by
  rcases h with cs | eq
  · simp [BusCycle.isWrite, BusCycle.isRead, cs]
  · simp [BusCycle.isWrite, BusCycle.isRead, eq]

theorem BusCycle.command_of_write {c : BusCycle} (write : c.isWrite = true) :
    c.command = some (writeCommand c.addr c.data) := by
  rw [BusCycle.command, if_pos write]

theorem BusCycle.command_of_idle {c : BusCycle} (write : c.isWrite = false) (read : c.isRead = false) :
    c.command = none := by
  rw [BusCycle.command, write, read]; rfl

theorem State.drives_of_not_read {s : State} {c : BusCycle} (read : c.isRead = false) : s.drives c = none := by
  rw [State.drives, read]; rfl

theorem State.hostCycle_of_none {s : State} {c : BusCycle} (h : c.command = none) : s.hostCycle c = s := by
  rw [State.hostCycle, h]

/-- An address beyond the register map holds 0 (R180). -/
theorem State.readWord_unused (s : State) {a : BitVec 5} (h : 0x17 ≤ a.toNat) : s.readWord a = 0 := by
  unfold State.readWord
  split <;> first | rfl | omega

/-- A code from 1 to 9 names a command (R183). -/
theorem isCommandCode_eq_false {code : Word16} : isCommandCode code = false ↔ code = 0 ∨ 9 < code.toNat := by
  have zero : code = 0 ↔ code.toNat = 0 := ⟨fun e => by rw [e]; rfl, fun e => BitVec.eq_of_toNat_eq e⟩
  simp only [isCommandCode, zero, Bool.and_eq_false_iff, decide_eq_false_iff_not]
  omega

/-- A code of no command is neither of the nine codes. -/
theorem code_ne_of_not_command {code : Word16} (h : code = 0 ∨ 9 < code.toNat) {k : Word16}
    (hk : isCommandCode k = true) : code ≠ k := by
  rintro rfl
  rw [isCommandCode_eq_false.mpr h] at hk
  exact Bool.noConfusion hk

/-- The command of a code that names none (R183). -/
theorem commandOfCode_bad {code : Word16} (h : code = 0 ∨ 9 < code.toNat) : commandOfCode code = .badCmd code := by
  unfold commandOfCode
  iterate 9 rw [if_neg (code_ne_of_not_command h (by decide))]

/-- A code that names no command only sets RESULT (R183). -/
theorem State.hostCommand_bad (s : State) {code : Word16} (h : code = 0 ∨ 9 < code.toNat) :
    s.hostCommand code = s.hostBadCode := by
  unfold State.hostCommand
  iterate 9 rw [if_neg (code_ne_of_not_command h (by decide))]

/-- A code that is none of the nine names no command. -/
theorem isCommandCode_of_ne {code : Word16} (h1 : code ≠ 1) (h2 : code ≠ 2) (h3 : code ≠ 3) (h4 : code ≠ 4)
    (h5 : code ≠ 5) (h6 : code ≠ 6) (h7 : code ≠ 7) (h8 : code ≠ 8) (h9 : code ≠ 9) : isCommandCode code = false := by
  have ne : ∀ {k : Word16} {n : Nat}, k.toNat = n → code ≠ k → code.toNat ≠ n := fun hk h e =>
    h (BitVec.eq_of_toNat_eq (e.trans hk.symm))
  have zero : code = 0 ↔ code.toNat = 0 := ⟨fun e => by rw [e]; rfl, fun e => BitVec.eq_of_toNat_eq e⟩
  have n1 := ne (n := 1) rfl h1
  have n2 := ne (n := 2) rfl h2
  have n3 := ne (n := 3) rfl h3
  have n4 := ne (n := 4) rfl h4
  have n5 := ne (n := 5) rfl h5
  have n6 := ne (n := 6) rfl h6
  have n7 := ne (n := 7) rfl h7
  have n8 := ne (n := 8) rfl h8
  have n9 := ne (n := 9) rfl h9
  rw [isCommandCode_eq_false, zero]
  omega

/-- With RESET low a command held off by it changes nothing. -/
theorem next_of_held {s : State} (low : s.pins.resetLow = true) (t : State) :
    (.next (s.unlessHeld t) : Host.Outcome State Fault Refusal) = .next s :=
  congrArg Host.Outcome.next (State.unlessHeld_held t low)

/-- The command of a code is well formed, and with RESET low it changes nothing. -/
theorem commandOfCode_cases (code : Word16) : (commandOfCode code).wellFormed = true
    ∧ ∀ s : State, s.pins.resetLow = true → exec (commandOfCode code) s = .next s := by
  unfold commandOfCode
  split_ifs with h1 h2 h3 h4 h5 h6 h7 h8 h9
  case neg =>
    exact ⟨by rw [Instr.wellFormed, isCommandCode_of_ne h1 h2 h3 h4 h5 h6 h7 h8 h9]; rfl, fun s low => next_of_held low _⟩
  all_goals exact ⟨rfl, fun s low => next_of_held low _⟩

/-- The command of a write cycle is well formed, and with RESET low it changes nothing (R180). -/
theorem writeCommand_cases (a : BitVec 5) (w : Word16) : (writeCommand a w).wellFormed = true
    ∧ ∀ s : State, s.pins.resetLow = true → exec (writeCommand a w) s = .next s := by
  unfold writeCommand
  split_ifs with h0 h1 h6
  · exact ⟨rfl, fun s low => next_of_held low _⟩
  · exact ⟨rfl, fun s low => next_of_held low _⟩
  · exact commandOfCode_cases w
  · exact ⟨by simpa [Instr.wellFormed, hasOwnWriteRow] using ⟨⟨h0, h1⟩, h6⟩, fun s low => next_of_held low _⟩

/-- The command of a write of CMD by its code (R183). -/
theorem writeCommand_cmd (w : Word16) : writeCommand 0x06 w = commandOfCode w := rfl

/-- Settles O10: a store of the word, and the three kinds of bus cycle. -/
theorem registerWriteStoresTheWord : Obligations.RegisterWriteStoresTheWord := by
  refine ⟨fun s a w released h0 h1 h6 => ?_, fun s c cs rd wr => ?_, fun s c cs wr rd => ?_, fun s c idle => ?_,
    fun s c low => ?_⟩
  · refine ⟨s.busWrite a w, next_of_released released _, ?_, ?_⟩
    · rw [State.busWrite_plain s w h0 h1 h6, Lpt.store_eq]; rfl
    · rw [State.busWrite_plain s w h0 h1 h6]
      rintro (rfl | rfl | rfl | rfl | rfl) <;> rfl
  · have read : c.isRead = true := by simp [BusCycle.isRead, cs, rd, wr]
    refine ⟨fun released => State.drives_of_read released read, fun other => ?_, fun rotHi => ?_,
      fun unused => s.readWord_unused unused⟩
    · have none : c.command = none := by rw [BusCycle.command_of_read read, if_neg other]
      exact ⟨none, State.hostCycle_of_none none⟩
    · rw [BusCycle.command_of_read read, if_pos rotHi]
  · obtain ⟨write, notRead⟩ := BusCycle.isWrite_of cs wr rd
    have command := BusCycle.command_of_write write
    refine ⟨State.drives_of_not_read notRead, fun a => by rw [command, a]; rfl, fun a => by rw [command, a]; rfl,
      fun a => ?_, fun h0 h1 h6 => ?_, fun i isCommand => ?_⟩
    · rw [command, a, writeCommand_cmd]
      refine ⟨fun d => by rw [d]; rfl, fun d => by rw [d]; rfl, fun d => by rw [d]; rfl, fun d => by rw [d]; rfl,
        fun d => by rw [d]; rfl, fun d => by rw [d]; rfl, fun d => by rw [d]; rfl, fun d => by rw [d]; rfl,
        fun d => by rw [d]; rfl, fun bad => by rw [commandOfCode_bad bad]⟩
    · rw [command, writeCommand, if_neg h0, if_neg h1, if_neg h6]
    · obtain ⟨wf, held⟩ := writeCommand_cases c.addr c.data
      obtain rfl : writeCommand c.addr c.data = i := Option.some.inj (command.symm.trans isCommand)
      exact ⟨wf, by rw [State.hostCycle, isCommand]; rfl, held s⟩
  · obtain ⟨notWrite, notRead⟩ := BusCycle.idle_of idle
    have none := BusCycle.command_of_idle notWrite notRead
    exact ⟨State.drives_of_not_read notRead, none, State.hostCycle_of_none none⟩
  · rw [State.drives, low, Bool.not_true, Bool.and_false]; rfl

/-- Settles O11: a code of no command takes none of the nine arms of `hostCommand`. -/
theorem unknownCodeOnlySetsTheResult : Obligations.UnknownCodeOnlySetsTheResult := by
  intro s code released bad
  refine (next_of_released released _).trans ?_
  rw [s.hostCommand_bad bad]; rfl

end Sys2Proof.Machine
end

section
/-! PROOFS. The commands of the host but those of the queue: INQUIRE, POST, CANCEL, ENABLE, LEAVE, DISABLE and the resets (R16,
R143, R148, R154, R155, R157, R167). -/

namespace Sys2Proof.Machine

/-! ### INQUIRE (R16, R185) -/

/-- A flag of a word, at the bit of its value. -/
def flagWord (b : Prop) [Decidable b] (k : Word16) : Word16 := if b then k else 0

/-- The holder and waiter fields of INQ0 (R185). -/
def inquiryBase (holders waiters : Nat) : Word16 := (BitVec.ofNat 16 holders <<< 11) ||| (BitVec.ofNat 16 waiters <<< 7)

/-- INQ0 with an own claim (R185). -/
def inquiryWord (holders waiters code : Nat) (c : Claim) : Word16 :=
  inquiryBase holders waiters ||| (BitVec.ofNat 16 code <<< 2) ||| flagWord (c.mode = .exclusive) 2
    ||| flagWord (c.expiry.isNone = true) 1

/-- The words without an own claim. -/
theorem inquiryWords_of_none {k : Nat} {r : Option ResRecord} (h : ownClaim k r = none) :
    inquiryWords k r = ⟨inquiryBase (holderField r) (waiterField r), 0, 0⟩ := by
  rw [inquiryWords, h]; rfl

/-- The words with an own claim. -/
theorem inquiryWords_of_some {k : Nat} {r : Option ResRecord} {code : Nat} {c : Claim} (h : ownClaim k r = some (code, c)) :
    inquiryWords k r = ⟨inquiryWord (holderField r) (waiterField r) code c, upper (c.expiry.getD 0),
      lower (c.expiry.getD 0)⟩ := by
  rw [inquiryWords, h]; rfl

section
variable {holders waiters : Nat} (hh : holders < 2 ^ 5) (hw : waiters < 2 ^ 4)
include hh hw

/-- The two fields of every INQ0 (R185). -/
theorem inquiryBase_fields : ((inquiryBase holders waiters).extractLsb' 11 5).toNat = holders
    ∧ ((inquiryBase holders waiters).extractLsb' 7 4).toNat = waiters
    ∧ ∀ lo len, lo + len ≤ 7 → (inquiryBase holders waiters).extractLsb' lo len = 0#len := by
  have ofH : (BitVec.ofNat 16 holders).toNat = holders := ofNat16_toNat (hh.trans (by decide))
  have ofW : (BitVec.ofNat 16 waiters).toNat = waiters := ofNat16_toNat (hw.trans (by decide))
  refine ⟨?_, ?_, fun lo len below => ?_⟩ <;> rw [inquiryBase, field_or]
  · rw [field_shift _ (by decide), field_shift_above _ (by decide) (by rw [ofW]; exact hw), BitVec.or_zero,
      BitVec.toNat_setWidth, ofH, Nat.mod_eq_of_lt hh]
  · rw [field_below _ (by decide), field_shift _ (by decide), BitVec.zero_or, BitVec.toNat_setWidth, ofW,
      Nat.mod_eq_of_lt hw]
  · rw [field_below _ (by omega), field_below _ below, BitVec.or_zero]

end

theorem flagWord_lt (b : Prop) [Decidable b] {k : Word16} {n : Nat} (h : k.toNat < n) : (flagWord b k).toNat < n := by
  rw [flagWord]; split
  · exact h
  · exact Nat.zero_lt_of_lt h

/-- The own-claim fields of INQ0 (R185). -/
theorem inquiryWord_fields {holders waiters code : Nat} (hh : holders < 2 ^ 5) (hw : waiters < 2 ^ 4) (hc : code < 2 ^ 5)
    (c : Claim) : ((inquiryWord holders waiters code c).extractLsb' 11 5).toNat = holders
    ∧ ((inquiryWord holders waiters code c).extractLsb' 7 4).toNat = waiters
    ∧ ((inquiryWord holders waiters code c).extractLsb' 2 5).toNat = code
    ∧ ((inquiryWord holders waiters code c).getLsbD 1 = true ↔ c.mode = .exclusive)
    ∧ ((inquiryWord holders waiters code c).getLsbD 0 = true ↔ c.expiry = none) := by
  obtain ⟨baseH, baseW, low⟩ := inquiryBase_fields hh hw
  have ofC : (BitVec.ofNat 16 code).toNat = code := ofNat16_toNat (hc.trans (by decide))
  have mode : (flagWord (c.mode = .exclusive) 2).toNat < 2 ^ 2 := flagWord_lt _ (by decide)
  have expiry : (flagWord (c.expiry.isNone = true) 1).toNat < 2 ^ 2 := flagWord_lt _ (by decide)
  have above : ∀ {lo len}, 7 ≤ lo → (inquiryWord holders waiters code c).extractLsb' lo len
      = (inquiryBase holders waiters).extractLsb' lo len := fun {lo len} hlo => by
    have wide : 2 ^ 2 ≤ 2 ^ lo := Nat.pow_le_pow_right (by decide) (by omega)
    rw [inquiryWord, field_or, field_or, field_or, field_above _ (mode.trans_le wide), field_above _ (expiry.trans_le wide),
      field_shift_above _ (by omega) (by rw [ofC]; exact hc.trans_le (Nat.pow_le_pow_right (by decide) (by omega)))]
    simp
  have bit : ∀ i, i < 2 → (inquiryWord holders waiters code c).getLsbD i
      = ((flagWord (c.mode = .exclusive) 2).getLsbD i || (flagWord (c.expiry.isNone = true) 1).getLsbD i) := fun i hi => by
    have base : (inquiryBase holders waiters).getLsbD i = false := by
      have := congrArg (fun x => BitVec.getLsbD x 0) (low i 1 (by omega))
      simpa using this
    rw [inquiryWord, BitVec.getLsbD_or, BitVec.getLsbD_or, BitVec.getLsbD_or, base, BitVec.getLsbD_shiftLeft]
    simp [hi]
  refine ⟨by rw [above (by decide), baseH], by rw [above (by decide), baseW], ?_, ?_, ?_⟩
  · rw [inquiryWord, field_or, field_or, field_or, low 2 5 (by decide), field_shift _ (by decide), field_above _ mode,
      field_above _ expiry, BitVec.zero_or, BitVec.or_zero, BitVec.or_zero, BitVec.toNat_setWidth, ofC, Nat.mod_eq_of_lt hc]
  · rw [bit 1 (by decide)]
    by_cases exclusive : c.mode = .exclusive <;> cases c.expiry <;> simp [flagWord, exclusive]
  · rw [bit 0 (by decide)]
    by_cases exclusive : c.mode = .exclusive <;> cases c.expiry <;> simp [flagWord, exclusive]

/-- A holding claim is the own claim, with code 16 (R16, R185). -/
theorem ownClaim_of_holding {k : Nat} {r : ResRecord} {c : Claim} (h : r.holding k = some c) :
    ownClaim k (some r) = some (16, c) := by
  rw [ownClaim, h]

/-- Else the first waiting claim is, with its position (R3, R16). -/
theorem ownClaim_of_waiting {k : Nat} {r : ResRecord} {i : Nat} {c : Claim} (none : r.holding k = none)
    (at_i : r.waiters[i]? = some c) (own : c.station = k)
    (first : ∀ j d, j < i → r.waiters[j]? = some d → d.station ≠ k) : ownClaim k (some r) = some (i + 1, c) := by
  obtain ⟨hi, rfl⟩ := List.getElem?_eq_some_iff.mp at_i
  have notBefore : ∀ j (hj : j < i), ((r.waiters[j]'(hj.trans hi)).station == k) = false := fun j hj => by
    simpa using first j _ hj (List.getElem?_eq_getElem (hj.trans hi))
  have index : r.waiters.findIdx (fun c => c.station == k) = i :=
    (List.findIdx_eq hi).mpr ⟨by simpa using own, notBefore⟩
  have found : r.waitingOf k = some r.waiters[i] :=
    List.find?_eq_some_iff_getElem.mpr ⟨by simpa using own, i, hi, rfl, fun j hj => by simpa using notBefore j hj⟩
  rw [ownClaim, none]
  show (r.waitingOf k).map _ = _
  rw [found, Option.map_some, positionOf, index]

/-- A record without a claim of the station. -/
theorem ownClaim_of_none {k : Nat} {r : ResRecord} (h : ∀ c ∈ r.holders ++ r.waiters, c.station ≠ k) :
    ownClaim k (some r) = none := by
  obtain ⟨holders, waiters⟩ := List.forall_mem_append.mp h
  have holding : r.holding k = none := List.find?_eq_none.mpr fun c hc => by simpa using holders c hc
  have waiting : r.waitingOf k = none := List.find?_eq_none.mpr fun c hc => by simpa using waiters c hc
  rw [ownClaim, holding]
  show (r.waitingOf k).map _ = _
  rw [waiting, Option.map_none]

/-- With 15 waiters at most the code of an own claim fits its field (R185). -/
theorem ownClaim_code_lt {k code : Nat} {r : ResRecord} {c : Claim} (places : r.waiters.length ≤ 15)
    (h : ownClaim k (some r) = some (code, c)) : code < 2 ^ 5 := by
  cases holding : r.holding k with
  | some d =>
    obtain ⟨rfl, rfl⟩ : code = 16 ∧ c = d := by simpa using h.symm.trans (ownClaim_of_holding holding)
    decide
  | none =>
    rw [ownClaim, holding] at h
    obtain ⟨_, _, e⟩ := Option.map_eq_some_iff.mp h
    have position : positionOf k r.waiters = code := congrArg Prod.fst e
    have index := List.findIdx_le_length (p := fun c : Claim => c.station == k) (xs := r.waiters)
    rw [positionOf] at position
    omega

/-- The holder field: 31 for an EXCLUSIVE holder, else the number of holders (R185). -/
theorem holderField_eq (r : ResRecord) :
    holderField (some r) = if ∃ c ∈ r.holders, c.mode = .exclusive then 31 else r.holders.length := by
  simp only [holderField, hasExclusive, List.any_eq_true, beq_iff_eq]

/-- INQUIRE with a key, in MEMBER and LEAVING, answers with the words of the record (R16). -/
theorem State.hostInquire_of_key {s : State} (state : s.stc.station = .member ∨ s.stc.station = .leaving)
    (key : s.lpt.inqKey ≠ 0) {w : InquiryWords} (words : inquiryWords s.number (s.tbu.find s.lpt.inqKey) = w) :
    s.hostInquire = { s with
      lpt := { s.lpt with cmd := 9, result := .ok, inq0 := w.inq0, inq1 := w.inq1, inq2 := w.inq2 } } := by
  subst words
  rw [State.hostInquire, if_pos state, if_neg key]; rfl

/-- Settles O12: the state and the key decide the result; the words are those of the record, by whether the station holds,
waits or has no claim in it. -/
theorem inquireAnswersFromTheTable : Obligations.InquireAnswersFromTheTable := by
  refine ⟨fun s => ⟨rfl, rfl, rfl⟩, fun s released => ⟨fun notMember notLeaving => ?_, fun state =>
    ⟨fun noKey => ?_, fun key noRecord => ?_, fun r key found holders waiters => ?_⟩⟩⟩
  · refine (next_of_released released _).trans ?_
    rw [State.hostInquire, if_neg (not_or_intro notMember notLeaving)]; rfl
  · refine (next_of_released released _).trans ?_
    rw [State.hostInquire, if_pos state, if_pos noKey]; rfl
  · have none : s.tbu.find s.lpt.inqKey = none := List.find?_eq_none.mpr fun r hr => by simpa using noRecord r hr
    refine (next_of_released released _).trans ?_
    rw [State.hostInquire_of_key state key (by rw [none, inquiryWords_of_none (by rfl)])]; rfl
  · have hh : holderField (some r) < 2 ^ 5 := by rw [holderField_eq]; split <;> omega
    have hw : waiterField (some r) < 2 ^ 4 := Nat.lt_succ_of_le waiters
    have words : ∀ {w}, inquiryWords s.number (some r) = w → exec .inquire s = .next { s with
        lpt := { s.lpt with cmd := 9, result := .ok, inq0 := w.inq0, inq1 := w.inq1, inq2 := w.inq2 } } := fun e => by
      refine (next_of_released released _).trans ?_
      rw [State.hostInquire_of_key state key (by rw [found, e])]
    refine ⟨_, _, _, words rfl, ?_⟩
    rw [← holderField_eq r]
    cases own : ownClaim s.number (some r) with
    | none =>
      obtain ⟨baseH, baseW, low⟩ := inquiryBase_fields hh hw
      rw [inquiryWords_of_none own]
      refine ⟨baseH, baseW, fun c holds => ?_, fun i c notHeld at_i isOwn first => ?_, fun _ => ⟨?_, rfl, rfl⟩⟩
      · rw [ownClaim_of_holding holds] at own; cases own
      · rw [ownClaim_of_waiting notHeld at_i isOwn first] at own; cases own
      · rw [low 0 7 (by decide)]; rfl
    | some found =>
      obtain ⟨code, own'⟩ := found
      obtain ⟨wordH, wordW, wordCode, wordMode, wordExpiry⟩ :=
        inquiryWord_fields hh hw (ownClaim_code_lt waiters own) own'
      have same : ∀ {k c}, ownClaim s.number (some r) = some (k, c) → code = k ∧ own' = c := fun e => by
        simpa using own.symm.trans e
      rw [inquiryWords_of_some own]
      refine ⟨wordH, wordW, fun c holds => ?_, fun i c notHeld at_i isOwn first => ?_, fun others => ?_⟩
      · obtain ⟨rfl, rfl⟩ := same (ownClaim_of_holding holds)
        exact ⟨wordCode, wordMode, wordExpiry, upper_append_lower _⟩
      · obtain ⟨rfl, rfl⟩ := same (ownClaim_of_waiting notHeld at_i isOwn first)
        exact ⟨wordCode, wordMode, wordExpiry, upper_append_lower _⟩
      · rw [ownClaim_of_none others] at own; cases own

/-! ### POST (R157, R158, R184) -/

/-- Staging words that keep R158 form the request of their fields, with what its op kind ignores at 0 (R21, R184). -/
theorem Lpt.stagedRequest_of_wellFormed {p : Lpt} (h : StagedWellFormed p) : p.stagedRequest = some (stagedRecord p) := by
  obtain ⟨⟨low, high⟩, resource, mode, lease, patience⟩ := h
  have kinds : stagedOp p = 1 ∨ stagedOp p = 2 ∨ stagedOp p = 3 ∨ stagedOp p = 4 ∨ stagedOp p = 5 := by omega
  refine formRequest_iff.mpr ?_
  show (stagedRecord p).wf = true ∧ stagedOp p = _ ∧ (∀ m, _ → stagedMode p = _) ∧ _
  rcases kinds with op | op | op | op | op <;>
    simp_all [stagedRecord, Request.wf, OpKind.usesMode, OpKind.usesLease, OpKind.usesPatience, Config.maxLease, stageTag]
  rcases mode with shared | exclusive
  · simp [shared]
  · simp [exclusive]

/-- The request that staging words form keeps R158, so its words do (R184). -/
theorem StagedWellFormed.of_stagedRequest {p : Lpt} {q : Request} (h : p.stagedRequest = some q) : StagedWellFormed p := by
  obtain ⟨wf, op, mode, -, resource, lease, patience⟩ := formRequest_iff.mp h
  replace op : stagedOp p = _ := op
  replace mode : ∀ m, q.mode = some m → stagedMode p = _ := mode
  rcases q with ⟨_ | _ | _ | _ | _, m, tag, res, le, pa⟩ <;>
    simp_all [StagedWellFormed, Request.wf, OpKind.usesMode, OpKind.usesLease, OpKind.usesPatience, Config.maxLease]

  cases m with
  | none => simp at wf
  | some m => cases m <;> simp [mode _ rfl]

/-- The staging words form a request exactly when they keep R158. -/
theorem Lpt.stagedRequest_of_not_wellFormed {p : Lpt} (h : ¬ StagedWellFormed p) : p.stagedRequest = none :=
  Option.eq_none_iff_forall_ne_some.mpr fun _ e => h (StagedWellFormed.of_stagedRequest e)

/-- A refused POST only answers (R157). -/
theorem State.hostPost_of_refused {s : State} {r : Result} (h : s.postResult = r) (refused : r ≠ .ok) :
    s.hostPost = s.answer 5 r := by
  rw [State.hostPost, h]
  cases r <;> first | rfl | exact absurd rfl refused

/-- An accepted POST (R157). -/
theorem State.hostPost_of_ok {s : State} {q : Request} (h : s.postResult = .ok) (staged : s.lpt.stagedRequest = some q) :
    s.hostPost = (s.setRqu (s.rqu.accept q)).answer 5 .ok := by
  rw [State.hostPost, h, staged]

/-- The result of a POST in MEMBER with a well-formed request (R157). -/
theorem State.postResult_of_staged {s : State} {q : Request} (state : s.stc.station = .member)
    (staged : s.lpt.stagedRequest = some q) : s.postResult = if q.tag ∈ s.rqu.live then .tagBusy
      else if 32 ≤ s.rqu.live.length then .qFull else .ok := by
  rw [State.postResult, if_neg (not_not.mpr state), staged]
  simp only [List.contains_iff_mem, Config.requestPlaces]

/-- Settles O13: the checks of R157 in their order. -/
theorem postIsDecidedByTheFirstFailingCheck : Obligations.PostIsDecidedByTheFirstFailingCheck := by
  intro s released
  have post : ∀ t, s.hostPost = t → exec .post s = .next t := fun t e => (next_of_released released _).trans (by rw [e])
  refine ⟨fun notMember => post _ ?_, fun state bad => post _ ?_, fun state good busy => post _ ?_,
    fun state good free full => post _ ?_, fun state good free room => post _ ?_⟩
  · have result : s.postResult = .badState := by rw [State.postResult, if_pos notMember]
    exact State.hostPost_of_refused result (by decide)
  · have result : s.postResult = .badArg := by
      rw [State.postResult, if_neg (not_not.mpr state), Lpt.stagedRequest_of_not_wellFormed bad]
    exact State.hostPost_of_refused result (by decide)
  all_goals
    have staged := Lpt.stagedRequest_of_wellFormed good
    have result := State.postResult_of_staged state staged
  · exact State.hostPost_of_refused (result.trans (if_pos busy)) (by decide)
  · exact State.hostPost_of_refused (result.trans ((if_neg free).trans (if_pos full))) (by decide)
  · exact State.hostPost_of_ok (result.trans ((if_neg free).trans (if_neg (Nat.not_le.mpr room)))) staged

/-! ### CANCEL (R167) -/

/-- The tag that names no request of a list. -/
theorem find_tag_none {l : List Request} {t : Byte} (h : ∀ q ∈ l, q.tag ≠ t) : l.find? (fun q => q.tag == t) = none :=
  List.find?_eq_none.mpr fun q hq => by simpa using h q hq

/-- Settles O14: the first queued request of the tag is found, or the in-flight list decides. -/
theorem cancelRemovesOnlyAQueuedRequest : Obligations.CancelRemovesOnlyAQueuedRequest := by
  intro s released
  have cancel : ∀ t, s.hostCancel = t → exec .cancel s = .next t := fun t e =>
    (next_of_released released _).trans (by rw [e])
  refine ⟨fun before after q outgoing tag others => cancel _ ?_, fun notQueued => ⟨fun ⟨q, flies, tag⟩ => cancel _ ?_,
    fun notFlying => cancel _ ?_⟩⟩
  · have isTag : stageTag s.lpt.stage0 = q.tag := tag.symm
    have found : s.rqu.queuedWith q.tag = some q := by
      rw [Rqu.queuedWith, outgoing, List.find?_append, find_tag_none others, Option.none_or,
        List.find?_cons_of_pos (by simp)]
    have rest : s.rqu.outgoing.eraseP (fun x => x.tag == q.tag) = before ++ after := by
      rw [outgoing, List.eraseP_append_right _ (fun b hb => by simpa using others b hb), List.eraseP_cons_of_pos (by simp)]
    simp only [State.hostCancel, isTag, found, Rqu.cancelTag, rest]
    rfl
  · have none : s.rqu.queuedWith (stageTag s.lpt.stage0) = none := find_tag_none notQueued
    have flying : (s.rqu.inflight.any fun q => q.tag == stageTag s.lpt.stage0) = true :=
      List.any_eq_true.mpr ⟨q, flies, beq_iff_eq.mpr tag⟩
    simp only [State.hostCancel, none, flying, if_true]
    rfl
  · have none : s.rqu.queuedWith (stageTag s.lpt.stage0) = none := find_tag_none notQueued
    have notFlying : (s.rqu.inflight.any fun q => q.tag == stageTag s.lpt.stage0) = false :=
      List.any_eq_false.mpr fun q hq e => notFlying q hq (eq_of_beq e)
    simp only [State.hostCancel, none, notFlying]
    rfl

/-! ### ENABLE (R143) -/

/-- The check of R143 as it is stated. -/
theorem configValid_iff (c : ConfigCopy) (k : Nat) : configValid c k = true
    ↔ (2 ≤ c.n.toNat ∧ c.n.toNat ≤ 16) ∧ (1 ≤ c.m.toNat ∧ c.m.toNat ≤ 4) ∧ k < c.n.toNat := by
  simp only [configValid, Bool.and_eq_true, decide_eq_true_eq]
  tauto

/-- ENABLE elsewhere than in HALTED and DETACHED (R143). -/
theorem State.hostEnable_of_badState {s : State} (notHalted : s.stc.station ≠ .halted)
    (notDetached : s.stc.station ≠ .detached) : s.hostEnable = s.answer 1 .badState := by
  unfold State.hostEnable
  cases station : s.stc.station with
  | halted => exact absurd station notHalted
  | detached => exact absurd station notDetached
  | listening | founding | joining | loading | member | leaving => rfl

theorem State.hostEnable_of_halted {s : State} (halted : s.stc.station = .halted) : s.hostEnable =
    if configValid s.stc.config s.number then s.enableFromHalted.answer 1 .ok else s.answer 1 .badConfig := by
  rw [State.hostEnable, halted]

theorem State.hostEnable_of_detached {s : State} (detached : s.stc.station = .detached) :
    s.hostEnable = s.enableFromDetached.answer 1 .ok := by
  rw [State.hostEnable, detached]

/-- Settles O16: by the state and the check; from DETACHED the tracker is that of every entry to LISTENING. -/
theorem enableStartsListening : Obligations.EnableStartsListening := by
  intro s released
  have enable : ∀ t, s.hostEnable = t → exec .enable s = .next t := fun t e =>
    (next_of_released released _).trans (by rw [e])
  refine ⟨fun notHalted notDetached => enable _ (State.hostEnable_of_badState notHalted notDetached),
    fun halted bad => enable _ ?_, fun halted good => enable _ ?_, fun detached =>
      ⟨_, enable _ (State.hostEnable_of_detached detached), rfl, ?_⟩⟩
  · rw [State.hostEnable_of_halted halted, if_neg (mt (configValid_iff _ s.number).mp bad)]; rfl
  · rw [State.hostEnable_of_halted halted, if_pos ((configValid_iff _ s.number).mpr good)]; rfl
  · show s.trk.enterListening.rotation = _ ∧ _
    cases aligned : s.trk.aligned with
    | true =>
      rw [State.answer_trk, show s.enableFromDetached.trk = s.trk.enterListening from rfl,
        Trk.enterListening_aligned aligned]
      exact ⟨rfl, aligned, rfl, rfl, rfl, rfl, rfl, fun _ => ⟨rfl, rfl, rfl⟩, nofun⟩
    | false =>
      rw [State.answer_trk, show s.enableFromDetached.trk = s.trk.enterListening from rfl,
        Trk.enterListening_unaligned aligned]
      exact ⟨rfl, aligned, rfl, rfl, rfl, rfl, rfl, nofun, fun _ => ⟨rfl, rfl⟩⟩

/-! ### LEAVE and DISABLE (R148, R154) -/

/-- Settles O17: in MEMBER the abort of the queue, then the STATE record. -/
theorem leaveAbortsTheQueueAndDrains : Obligations.LeaveAbortsTheQueueAndDrains := by
  intro s released
  refine ⟨fun notMember => (next_of_released released _).trans ?_, fun member => (next_of_released released _).trans ?_⟩
  · rw [State.hostLeave, if_neg notMember]; rfl
  · rw [State.hostLeave, if_pos member, List.foldl_concat]; rfl

/-- A cut transmission leaves everything but the line's level (R111). -/
theorem State.cutTransmission_eq (s : State) : ∃ active, s.cutTransmission = s.setPins { s.pins with lineActive := active } := by
  unfold State.cutTransmission; split
  · exact ⟨false, rfl⟩
  · exact ⟨s.pins.lineActive, rfl⟩

/-- Settles O18: the blocks after the aborts and the clearings of R154. -/
theorem disableHaltsTheStation : Obligations.DisableHaltsTheStation := by
  intro s released
  refine ⟨fun halted => (next_of_released released _).trans ?_, fun notHalted => ?_⟩
  · rw [State.hostDisable, if_pos halted]; rfl
  · obtain ⟨active, cut⟩ := (s.abortAll s.trk.rotation).cutTransmission_eq
    refine ⟨active, (next_of_released released _).trans ?_⟩
    rw [State.hostDisable, if_neg notHalted, List.foldl_concat]
    refine congrArg Host.Outcome.next (State.ext_blocks rfl rfl rfl rfl ?_ ?_ rfl ?_ ?_ ?_ ?_ ?_) <;>
      simp [State.disableTaken, cut]
    exact List.foldl_append

/-! ### The resets (R155) -/

/-- With RESET low every command but those of the pin leaves all but the line's level (R155, R180). -/
theorem exec_of_held {c : Instr} {s : State} (low : s.pins.resetLow = true) (notPinReset : ∀ sn, c ≠ .pinReset sn)
    (notRelease : c ≠ .resetRelease) :
    ∃ active, exec c s = .next { s with pins := { s.pins with lineActive := active } } := by
  have held : ∀ t : State, ∃ active, (.next (s.unlessHeld t) : Host.Outcome State Fault Refusal)
      = .next { s with pins := { s.pins with lineActive := active } } := fun t => ⟨s.pins.lineActive, next_of_held low t⟩
  cases c with
  | pinReset sn => exact absurd rfl (notPinReset sn)
  | resetRelease => exact absurd rfl notRelease
  | activityBegins => exact ⟨true, congrArg Host.Outcome.next (if_pos low)⟩
  | activityStops bits => exact ⟨false, congrArg Host.Outcome.next (if_pos low)⟩
  | _ => exact held _

/-- Settles O19: the blocks of `resetBlocks`, and `exec_of_held`. -/
theorem resetsClearTheStation : Obligations.ResetsClearTheStation := by
  refine ⟨fun s sn => ⟨s.cutTransmission.pins.lineActive, ?_⟩, fun c s => exec_of_held, fun s => rfl, fun s released => ?_⟩
  · obtain ⟨active, cut⟩ := s.cutTransmission_eq
    show Host.Outcome.next (s.pinResetLow sn) = _
    rw [State.pinResetLow, State.resetBlocks, cut]; rfl
  · obtain ⟨active, cut⟩ := s.cutTransmission_eq
    refine ⟨active, s.lpt.readData, (exec_portReset_of_released released).trans ?_⟩
    rw [State.hostPortReset, State.resetBlocks, cut]; rfl

end Sys2Proof.Machine
end

section
/-! PROOFS. Every command keeps the Request Unit sound: what leaves it alone, and the walk through what moves requests (R156,
R159, R160). -/

namespace Sys2Proof.Machine

/-! ### What leaves the Request Unit alone -/

section
variable (s : State)

@[simp] theorem State.passTurn_rqu : s.passTurn.rqu = s.rqu := by
  unfold State.passTurn; split <;> rfl

@[simp] theorem State.adopt_rqu (h : Nat) (r : Word32) (k : Nat) (more : Bool) : (s.adopt h r k more).rqu = s.rqu := by
  simp only [State.adopt]; split <;> rfl

@[simp] theorem State.trackStream_rqu (f : StreamFrame) : (s.trackStream f).rqu = s.rqu := by
  simp only [State.trackStream]; split <;> simp

@[simp] theorem State.trackTransfer_rqu (f : TransferFrame) : (s.trackTransfer f).rqu = s.rqu := by
  simp only [State.trackTransfer]
  generalize (if s.trk.holder = some f.sender then s.trk.transfers + 1 else 1) = k
  split <;> simp

@[simp] theorem State.faultTurn_rqu : s.faultTurn.rqu = s.rqu := by
  unfold State.faultTurn; split <;> simp

@[simp] theorem State.trackFault_rqu : s.trackFault.rqu = s.rqu := by
  unfold State.trackFault
  cases s.stc.station with
  | listening => cases s.trk.aligned <;> simp
  | _ => simp

@[simp] theorem State.trackItem_rqu (h : Heard) (own : Bool) : (s.trackItem h own).rqu = s.rqu := by
  simp only [State.trackItem]
  cases h with
  | stream f => dsimp only; split <;> simp
  | _ => simp

@[simp] theorem State.lifReport_rqu (h : Heard) : (s.lifReport h).rqu = s.rqu := by
  unfold State.lifReport
  cases h with
  | profile p => dsimp only; split <;> rfl
  | duplicate => dsimp only; split <;> rfl
  | _ => rfl

@[simp] theorem State.finishResolution_rqu (g : StreamFrame) (own : Bool) : (s.finishResolution g own).rqu = s.rqu := by
  unfold State.finishResolution; split <;> rfl

@[simp] theorem State.ignoreFound_rqu (f : StreamFrame) (r : Word32) : (s.ignoreFound f r).rqu = s.rqu := by
  unfold State.ignoreFound; split <;> rfl

@[simp] theorem State.catchAppend_rqu (e : CatchEntry) : (s.catchAppend e).rqu = s.rqu := by
  unfold State.catchAppend; split <;> rfl

@[simp] theorem State.joinFate_rqu (j : FrameRef) (g : StreamFrame) (own : Bool) : (s.joinFate j g own).rqu = s.rqu := by
  unfold State.joinFate
  split
  · split
    · exact State.catchAppend_rqu s _
    · rfl
  · split <;> rfl

@[simp] theorem State.awaitItem_rqu (h : Heard) (own : Bool) (sent : Option OwnItem) :
    (s.awaitItem h own sent).rqu = s.rqu := by
  unfold State.awaitItem
  split
  · rfl
  · cases own <;> cases h <;> rfl
  · cases h with
    | stream g => dsimp only; split <;> simp
    | _ => simp

@[simp] theorem State.endReplay_rqu : s.endReplay.rqu = s.rqu := by
  unfold State.endReplay; split <;> rfl

@[simp] theorem State.startReplay_rqu (ros : RosterItem) (recs : List ResRecord) (n : Nat) :
    (s.startReplay ros recs n).rqu = s.rqu := by
  simp only [State.startReplay]; split <;> simp

@[simp] theorem State.checkMap_rqu (n : Nat) : (s.checkMap n).rqu = s.rqu := by
  simp only [State.checkMap]
  split
  · split
    · split
      · simp
      · rfl
    · rfl
  · rfl

@[simp] theorem State.storeTransfer_rqu (t : TransferFrame) : (s.storeTransfer t).rqu = s.rqu := by
  simp only [State.storeTransfer]; split <;> simp

@[simp] theorem State.catchItem_rqu (h : Heard) (own : Bool) (sent : Option OwnItem) :
    (s.catchItem h own sent).rqu = s.rqu := by
  unfold State.catchItem
  cases h with
  | stream g => dsimp only; split <;> simp
  | transfer t => dsimp only; split <;> simp
  | _ => simp

@[simp] theorem State.xfuItem_rqu (h : Heard) (own : Bool) (sent : Option OwnItem) :
    (s.xfuItem h own sent).rqu = s.rqu := by
  unfold State.xfuItem
  cases s.xfu.phase with
  | idle => cases h <;> rfl
  | _ => simp

@[simp] theorem State.listenItem_rqu (h : Heard) (found : Bool) : (s.listenItem h found).rqu = s.rqu := by
  unfold State.listenItem
  cases h with
  | stream f => dsimp only; split <;> rfl
  | _ => rfl

@[simp] theorem State.foundLoopback_rqu (h : Heard) (own : Bool) : (s.foundLoopback h own).rqu = s.rqu := by
  unfold State.foundLoopback
  split
  · cases h with
    | stream f => dsimp only; split <;> rfl
    | _ => rfl
  · rfl

@[simp] theorem State.replayingItem_rqu (h : Heard) (r : Word32) : (s.replayingItem h r).rqu = s.rqu := by
  unfold State.replayingItem
  cases h with
  | stream f => dsimp only; split <;> simp [State.hear]
  | _ => rfl

@[simp] theorem State.leaveLoopback_rqu (h : Heard) (sent : Option OwnItem) : (s.leaveLoopback h sent).rqu = s.rqu := by
  unfold State.leaveLoopback; split <;> rfl

@[simp] theorem State.sendReplica_rqu (k : StreamKind) (ops : List Request) : (s.sendReplica k ops).rqu = s.rqu := rfl

@[simp] theorem State.sendLeaving_rqu : s.sendLeaving.rqu = s.rqu := by
  unfold State.sendLeaving; split <;> rfl

end

/-! ### What moves requests -/

/-- A POST is accepted only with a tag that is not live and a place left (R157). -/
theorem State.free_of_postResult_ok {s : State} {q : Request} (result : s.postResult = .ok)
    (staged : s.lpt.stagedRequest = some q) : q.tag ∉ s.rqu.live ∧ s.rqu.live.length < 32 := by
  by_cases state : s.stc.station = .member
  · rw [State.postResult_of_staged state staged] at result
    split_ifs at result with busy full
    exact ⟨busy, Nat.not_le.mp full⟩
  · rw [State.postResult, if_pos state] at result
    cases result

section
variable {s : State} (h : RequestsSound s.rqu)
include h

theorem RequestsSound.rquVoided (id : FrameId) : RequestsSound (s.rquVoided id).rqu := by
  unfold State.rquVoided
  split
  · split
    · exact RequestsSound.abortOutgoing (s := s.setRqu s.rqu.requeue) _ h.requeue
    · exact h.requeue
  · exact h

theorem RequestsSound.absentExit (r : Word32) : RequestsSound (s.absentExit r).rqu := h.abortAll _

theorem RequestsSound.divergedExit : RequestsSound s.divergedExit.rqu := h.abortAll _

theorem RequestsSound.stcVoided (m : OwnMark) : RequestsSound (s.stcVoided m).rqu := by
  unfold State.stcVoided
  split
  · exact h.abortOutgoing s.trk.rotation
  · split <;> exact h

theorem RequestsSound.reportFate (committed : Bool) : RequestsSound (s.reportFate committed).rqu := by
  unfold State.reportFate
  split
  · exact h
  · split
    · exact h.frameCommitted _
    · exact (h.rquVoided _).stcVoided _

theorem RequestsSound.takeResults (p : StreamFrame) (discarded : Bool) :
    RequestsSound (s.takeResults p discarded).rqu := by
  unfold State.takeResults
  split
  · split
    · exact h.abortDiscarded _ _
    · exact h.endResults _
  · exact h

theorem RequestsSound.memberReport (p : StreamFrame) (x y : Tbu) : RequestsSound (s.memberReport p x y).rqu := by
  unfold State.memberReport
  split
  · exact h.absentExit _
  · split <;> exact h

theorem RequestsSound.ownEntryReport (p : StreamFrame) (x y : Tbu) : RequestsSound (s.ownEntryReport p x y).rqu := by
  unfold State.ownEntryReport
  cases s.stc.station with
  | member | leaving => exact h.memberReport _ _ _
  | loading =>
    cases s.tbu.entry s.number with
    | member => dsimp only; split <;> exact h
    | _ => exact h
  | _ => exact h

theorem RequestsSound.applyCommitted (p : StreamFrame) : RequestsSound (s.applyCommitted p).rqu := by
  simp only [State.applyCommitted]
  refine RequestsSound.ownEntryReport ?_ _ _ _
  rw [State.syncImage_rqu]
  refine RequestsSound.takeResults ?_ _ _
  exact h

theorem RequestsSound.commitWaiting (p g : StreamFrame) (own : Bool) : RequestsSound (s.commitWaiting p g own).rqu := by
  simp only [State.commitWaiting, State.finishResolution_rqu]
  have applied : ∀ c, RequestsSound ((s.setCmu c).applyCommitted p).rqu := fun c =>
    RequestsSound.applyCommitted (s := s.setCmu c) h p
  split
  · exact (applied _).reportFate _
  · exact applied _

theorem RequestsSound.diverge (g : StreamFrame) (c : DivergeCause) : RequestsSound (s.diverge g c).rqu := by
  unfold State.diverge
  split
  · exact h
  · exact RequestsSound.divergedExit (s := (s.offer _).clearStream) h

theorem RequestsSound.discord (g : StreamFrame) : RequestsSound (s.discord g).rqu := by
  unfold State.discord
  split
  · exact h
  · split
    · exact h
    · exact h.diverge _ _

theorem RequestsSound.resolve (g : StreamFrame) (own : Bool) : RequestsSound (s.resolve g own).rqu := by
  unfold State.resolve
  split
  · exact h.commitWaiting _ _ _
  · rw [State.voidWaiting, State.finishResolution_rqu]; exact h.reportFate _
  · exact h.discord _
  · exact h.diverge _ _

theorem RequestsSound.replayNext : RequestsSound s.replayNext.rqu := by
  unfold State.replayNext
  split
  · rw [State.endReplay_rqu]; exact h
  · rw [State.endReplay_rqu]
    unfold State.resolveEntry
    split
    · refine RequestsSound.resolve ?_ _ _
      exact h
    · exact h

theorem RequestsSound.replicaItem (heard : Heard) (own : Bool) (sent : Option OwnItem) (r : Word32) :
    RequestsSound (s.replicaItem heard own sent r).rqu := by
  unfold State.replicaItem
  cases heard with
  | stream f =>
    dsimp only
    split
    · rw [State.ignoreFound_rqu]; exact h
    · exact RequestsSound.resolve (s := s.hear f) h _ _
  | _ => exact h

theorem RequestsSound.cmuItem (heard : Heard) (own : Bool) (sent : Option OwnItem) (r : Word32) :
    RequestsSound (s.cmuItem heard own sent r).rqu := by
  unfold State.cmuItem
  cases s.stc.station with
  | halted => exact h
  | member | leaving => exact h.replicaItem _ _ _ _
  | founding => dsimp only; rw [State.foundLoopback_rqu]; exact h
  | loading =>
    cases s.xfu.phase with
    | confirming => exact h.replicaItem _ _ _ _
    | replaying => dsimp only; rw [State.replayingItem_rqu]; exact h
    | _ => dsimp only; rw [State.listenItem_rqu]; exact h
  | _ => dsimp only; rw [State.listenItem_rqu]; exact h

theorem RequestsSound.deliver : RequestsSound s.deliver.rqu := by
  simp only [State.deliver, State.leaveLoopback_rqu, State.xfuItem_rqu]
  refine RequestsSound.cmuItem ?_ _ _ _ _
  simpa [State.itemTaken] using h

theorem RequestsSound.startTurn : RequestsSound s.startTurn.rqu := by
  unfold State.startTurn
  cases s.stc.station with
  | member =>
    dsimp only [State.sendMember]
    split
    · exact h.assemble _
    · exact h
  | leaving => dsimp only; rw [State.sendLeaving_rqu]; exact h
  | listening => dsimp only; split <;> exact h
  | joining => dsimp only; split <;> exact h
  | loading => cases s.xfu.phase <;> exact h
  | _ => exact h

theorem RequestsSound.frameMoment : RequestsSound s.frameMoment.rqu := by
  unfold State.frameMoment
  split
  · cases s.trk.phase with
    | idle => exact h
    | waiting => exact h.startTurn
    | transmitting => cases s.xfu.plan <;> exact h
  · exact h

theorem RequestsSound.hostEnable : RequestsSound s.hostEnable.rqu := by
  unfold State.hostEnable
  cases s.stc.station with
  | halted => dsimp only; split <;> exact h
  | _ => exact h

theorem RequestsSound.hostLeave : RequestsSound s.hostLeave.rqu := by
  unfold State.hostLeave
  split
  · exact h.abortOutgoing s.trk.rotation
  · exact h

theorem RequestsSound.hostDisable : RequestsSound s.hostDisable.rqu := by
  unfold State.hostDisable
  split
  · exact h
  · simpa [State.disableTaken] using h.abortAll 0

theorem RequestsSound.hostPost : RequestsSound s.hostPost.rqu := by
  unfold State.hostPost
  split
  next q result staged =>
    obtain ⟨free, room⟩ := State.free_of_postResult_ok result staged
    exact h.accept free room
  · exact h

theorem RequestsSound.hostCancel : RequestsSound s.hostCancel.rqu := by
  simp only [State.hostCancel]
  split
  next q found => exact h.cancelTag _ q found
  · split <;> exact h

theorem RequestsSound.hostPop : RequestsSound s.hostPop.rqu := by
  unfold State.hostPop; split <;> exact h

theorem RequestsSound.hostInquire : RequestsSound s.hostInquire.rqu := by
  unfold State.hostInquire
  split
  · split <;> exact h
  · exact h

theorem RequestsSound.hostCommand (code : Word16) : RequestsSound (s.hostCommand code).rqu := by
  unfold State.hostCommand
  split_ifs with enable leave disable reset post cancel pop clear inquire
  · exact h.hostEnable
  · exact h.hostLeave
  · exact h.hostDisable
  · exact RequestsSound.cleared
  · exact h.hostPost
  · exact h.hostCancel
  · exact h.hostPop
  · exact h
  · exact h.hostInquire
  · exact h

theorem RequestsSound.busWrite (a : BitVec 5) (w : Word16) : RequestsSound (s.busWrite a w).rqu := by
  unfold State.busWrite
  split_ifs
  · unfold State.writeConfig; split <;> exact h
  · exact h
  · exact h.hostCommand w
  · exact h

/-- A command held off by RESET, or taken. -/
theorem RequestsSound.unlessHeld {t : State} (ht : RequestsSound t.rqu) : RequestsSound (s.unlessHeld t).rqu := by
  unfold State.unlessHeld; split
  · exact h
  · exact ht

end

/-- Settles O15: by the command, each through the walk above. -/
theorem everyCommandKeepsTheRequestsSound : Obligations.EveryCommandKeepsTheRequestsSound := by
  intro c s t h run
  cases c with
  | enable => cases run; exact h.unlessHeld h.hostEnable
  | leave => cases run; exact h.unlessHeld h.hostLeave
  | disable => cases run; exact h.unlessHeld h.hostDisable
  | portReset => cases run; exact h.unlessHeld RequestsSound.cleared
  | post => cases run; exact h.unlessHeld h.hostPost
  | cancel => cases run; exact h.unlessHeld h.hostCancel
  | pop => cases run; exact h.unlessHeld h.hostPop
  | clearLost => cases run; exact h.unlessHeld (t := s.hostClearLost) h
  | inquire => cases run; exact h.unlessHeld h.hostInquire
  | badCmd code => cases run; exact h.unlessHeld (h.hostCommand code)
  | rothiRead => cases run; exact h.unlessHeld (t := s.readRotHi) h
  | configWrite w => cases run; exact h.unlessHeld (by unfold State.writeConfig; split <;> exact h)
  | irqenWrite w => cases run; exact h.unlessHeld (t := s.writeIrqEn w) h
  | registerWrite a w => cases run; exact h.unlessHeld (h.busWrite a w)
  | pinReset sn => cases run; exact RequestsSound.cleared
  | activityBegins =>
    cases run
    split
    · exact h
    · simp only [State.activityStarts]; split <;> exact h
  | itemDelivery =>
    cases run
    refine h.unlessHeld ?_
    split
    · exact h.deliver
    · exact h
  | skipPoint =>
    cases run
    refine h.unlessHeld ?_
    split
    · simpa [State.skipTurn] using h
    · exact h
  | listenWindowExpiry => cases run; refine h.unlessHeld ?_; split <;> exact h
  | frameStart =>
    cases run
    refine h.unlessHeld ?_
    split
    · exact h
    · exact h.frameMoment
  | transmissionEnd =>
    cases run
    refine h.unlessHeld ?_
    split
    · unfold State.sentWhole; split <;> exact h
    · exact h
  | loopbackMismatch => cases run; refine h.unlessHeld ?_; split <;> exact h
  | alignmentLoss =>
    cases run
    refine h.unlessHeld ?_
    split
    · simp only [State.loseAlignment]; split <;> exact h
    · exact h
  | joinStall => cases run; refine h.unlessHeld ?_; split <;> exact h
  | replayEntry =>
    cases run
    refine h.unlessHeld ?_
    split
    · exact h.replayNext
    · exact h
  | activityStops bits =>
    cases run
    split
    · exact h
    · simp only [State.activityEnds]
      split
      · exact h
      · split <;> exact h
  | resetRelease => cases run; exact h

end Sys2Proof.Machine
end

section
/-! PROOFS. The line's activity, the transmitter, the moments of the tracker and the frames that a station starts (R88, R92,
R96, R98 to R100, R104, R109, R122, R135, R144). -/

namespace Sys2Proof.Machine

/-! ### Activity and the transmitter (R104, R109, R110) -/

/-- With RESET released activity moves the receiver. -/
theorem exec_activityBegins_of_released {s : State} (released : s.pins.resetLow = false) :
    exec .activityBegins s = .next s.activityStarts :=
  congrArg Host.Outcome.next (if_neg (by simp [released]))

theorem exec_activityStops_of_released {s : State} (released : s.pins.resetLow = false) (bits : List Bool) :
    exec (.activityStops bits) s = .next (s.activityEnds bits) :=
  congrArg Host.Outcome.next (if_neg (by simp [released]))

/-- Activity stops while the station is not sending, by whether the receiver was ACTIVE (R104). -/
theorem State.activityEnds_of_idle {s : State} (idle : s.lif.transmitter = .idle) (bits : List Bool) :
    s.activityEnds bits = if s.lif.receiver = .active then
        (s.setPins { s.pins with lineActive := false }).setLif { s.lif with
          receiver := .trailing, item := { s.lif.item.collect bits with endAt := some s.clock } }
      else s.setPins { s.pins with lineActive := false } := by
  rw [State.activityEnds, if_neg (by simp [idle])]
  cases s.lif.receiver <;> rfl

/-- Settles O21: by the receiver's state, and a stop by the transmitter's first. -/
theorem activityMovesTheReceiver : Obligations.ActivityMovesTheReceiver := by
  intro s released
  have begins := exec_activityBegins_of_released released
  have stops := exec_activityStops_of_released released
  refine ⟨fun quiet => ?_, fun trailing => ?_, fun other => ?_, fun bits idle active => ?_, fun bits idle other => ?_,
    fun bits sending => ?_⟩
  · rw [begins, State.activityStarts, quiet]; rfl
  · rw [begins, State.activityStarts, trailing]; rfl
  · rcases other with off | active
    · rw [begins, State.activityStarts, off]; rfl
    · rw [begins, State.activityStarts, active]; rfl
  · rw [stops, State.activityEnds_of_idle idle, if_pos active]; rfl
  · rw [stops, State.activityEnds_of_idle idle, if_neg other]; rfl
  · rw [stops, State.activityEnds, if_pos sending]

/-- Settles O22: the two ends of a transmission, and neither in IDLE. -/
theorem transmitterEndsOrStops : Obligations.TransmitterEndsOrStops := by
  intro s released
  refine ⟨fun f sending sent => ⟨s.sentWhole, ?_, ?_, ?_⟩, fun sending => ⟨_, ?_, rfl, ?_, rfl⟩, fun idle => ⟨?_, ?_⟩⟩
  · exact (next_of_released released _).trans (by rw [if_pos sending])
  · rw [State.sentWhole, sent]; rfl
  · rw [State.sentWhole, sent]; rfl
  · exact (next_of_released released _).trans (by rw [if_pos sending]; rfl)
  · exact if_pos (by simp)
  · exact (next_of_released released _).trans (by rw [if_neg (by simp [idle])])
  · exact (next_of_released released _).trans (by rw [if_neg (by simp [idle])])

/-! ### The moments of the tracker (R92, R98 to R100) -/

theorem State.followsTurns_iff (s : State) : s.followsTurns = true ↔
    s.stc.station ≠ .halted ∧ s.stc.station ≠ .founding ∧ (s.stc.station = .listening → s.trk.aligned = true) := by
  unfold State.followsTurns
  cases s.stc.station <;> simp

/-- The turn passes from its holder (R91). -/
theorem State.passTurn_of_holder {s : State} {h : Nat} (holder : s.trk.holder = some h) :
    s.passTurn = (s.setTrk (passedTrk s s.trk h)).setXfu { s.xfu with
      stall := if (s.xfu.phase = .awaiting ∨ s.xfu.phase = .gathering) ∧ ¬ h + 1 < s.groupSize
        then min (s.xfu.stall + 1) 3
        else if s.xfu.phase = .awaiting ∨ s.xfu.phase = .gathering then min s.xfu.stall 3 else s.xfu.stall
      plan := none } := by
  rw [State.passTurn, holder]
  by_cases room : h + 1 < s.groupSize <;> by_cases counts : s.xfu.phase = .awaiting ∨ s.xfu.phase = .gathering <;>
    simp [State.passFrom, State.dropPlan, Xfu.advance, passedTrk, nextStation, rotationAfter, Config.stallLimit, room, counts]

/-- Settles O24: the turn passes, and the skip point is the new reference. -/
theorem skipPointPassesTheTurn : Obligations.SkipPointPassesTheTurn := by
  intro s released
  refine ⟨fun h k notHalted notFounding aligned running holder => (next_of_released released _).trans ?_,
    fun stopped => (next_of_released released _).trans ?_⟩
  · rw [if_pos (by simp [s.followsTurns_iff.mpr ⟨notHalted, notFounding, aligned⟩, running]), State.skipTurn,
      State.passTurn_of_holder holder]
    rfl
  · rw [if_neg (by simp [stopped])]

/-- A frame starts (R96, R109). -/
theorem State.startFrame_eq (s : State) (f : Frame) : s.startFrame f = { s with
    lif := startedLif s.lif f, trk := startedTrk s.trk, pins := { s.pins with lineActive := true } } := rfl

/-- The FOUND of a founding attempt (R100, R145). -/
def State.foundFrame (s : State) : StreamFrame :=
  StreamFrame.sealed s.profile
    { kind := .found, sender := s.number, rotation := 0, moreFollows := false, echo := none, streamCheck := none,
      wanted := 0, ops := [], check := 0 }

theorem State.beginFounding_eq (s : State) : s.beginFounding
    = (s.enter .founding .founding none s.trk.rotation).startFrame (.stream s.foundFrame) := rfl

/-- Settles O25: FOUNDING is entered and the sealed FOUND starts. -/
theorem listenWindowExpiryFoundsAGroup : Obligations.ListenWindowExpiryFoundsAGroup := by
  intro s k released listening unaligned running quiet
  refine ⟨s.foundFrame, (next_of_released released _).trans ?_, rfl, rfl⟩
  rw [if_pos ⟨listening, unaligned, by simp [running], quiet⟩, State.beginFounding_eq]; rfl

/-- The loss arises in a state that loses alignment, with the flag set and the count at 2N (R98). -/
theorem exec_alignmentLoss {s : State} (released : s.pins.resetLow = false)
    (loses : s.stc.station.losesAlignment = true) (aligned : s.trk.aligned = true) (lone : 2 * s.groupSize ≤ s.trk.lone) :
    exec .alignmentLoss s = .next s.loseAlignment :=
  (next_of_released released _).trans (by rw [if_pos (by simp [loses, aligned, lone])])

/-- Elsewhere than in LISTENING the flag alone is cleared (R98). -/
theorem State.loseAlignment_of_other {s : State} (other : s.stc.station ≠ .listening) :
    s.loseAlignment = s.setTrk { s.trk with aligned := false } := by
  rw [State.loseAlignment, if_neg other]

/-- In LISTENING no turn is followed and the window starts (R98, R99). -/
theorem State.loseAlignment_of_listening {s : State} (listening : s.stc.station = .listening) :
    s.loseAlignment = s.setTrk { s.trk with aligned := false, holder := none, phase := .idle, window := some 0 } := by
  rw [State.loseAlignment, if_pos listening]; rfl

/-- Settles O26: by the station's state. -/
theorem loneStationLosesAlignment : Obligations.LoneStationLosesAlignment := by
  intro s released
  refine ⟨fun aligned lone => ⟨fun station => ?_, fun listening => ?_⟩, fun keeps =>
    (next_of_released released _).trans ?_⟩
  · have loses : s.stc.station.losesAlignment = true ∧ s.stc.station ≠ .listening := by
      rcases station with e | e | e | e <;> rw [e] <;> exact ⟨rfl, nofun⟩
    rw [exec_alignmentLoss released loses.1 aligned lone, State.loseAlignment_of_other loses.2]; rfl
  · refine ⟨s.loseAlignment, exec_alignmentLoss released (by rw [listening]; rfl) aligned lone, ?_⟩
    rw [State.loseAlignment_of_listening listening]; rfl
  · rcases keeps with e | e <;> rw [if_neg (by simp [e, StationState.losesAlignment])]

/-! ### The frames a station starts (R96, R144) -/

/-- A frame starts while the transmitter is IDLE and RESET released (R96). -/
theorem exec_frameStart {s : State} (released : s.pins.resetLow = false) (idle : s.lif.transmitter = .idle) :
    exec .frameStart s = .next s.frameMoment :=
  (next_of_released released _).trans (by rw [if_neg (by simp [idle])])

/-- A FRAME_START that would take nothing takes nothing, whatever RESET and the transmitter are. -/
theorem exec_frameStart_of_silent {s : State} (silent : s.frameMoment = s) : exec .frameStart s = .next s := by
  refine congrArg Host.Outcome.next ?_
  rw [silent, ite_self]
  exact (s.unlessHeld_cases s).elim id id

/-- The station's own turn starts with the frame that its state sends (R144). -/
theorem exec_frameStart_of_ownTurn {s : State} (starts : OwnTurnStarts s) : exec .frameStart s = .next s.startTurn := by
  obtain ⟨released, idle, quiet, waiting⟩ := starts
  rw [exec_frameStart released idle, State.frameMoment, if_pos quiet, waiting]

/-- Settles O27: LIF yields, or the state sends nothing. -/
theorem aYieldedOrSilentTurnTakesNothing : Obligations.AYieldedOrSilentTurnTakesNothing := by
  refine fun s => ⟨fun busy => exec_frameStart_of_silent (if_neg busy), fun waiting station =>
    exec_frameStart_of_silent ?_⟩
  have silent : s.startTurn = s := by
    rcases station with e | e | e | ⟨e, unaligned⟩ | ⟨e, marked⟩ <;> simp only [State.startTurn, e]
    · rw [if_neg (by simp [unaligned])]
    · rw [if_neg marked]
  rw [State.frameMoment, waiting]
  simp only [silent, ite_self]

theorem State.startTurn_of_member {s : State} (member : s.stc.station = .member) : s.startTurn = s.sendMember := by
  rw [State.startTurn, member]

theorem State.startTurn_of_leaving {s : State} (leaving : s.stc.station = .leaving) : s.startTurn = s.sendLeaving := by
  rw [State.startTurn, leaving]

/-- Settles O28: the hold-back rule decides what the MEMBER frame carries. -/
theorem memberFrameCarriesUpToEightRequests : Obligations.MemberFrameCarriesUpToEightRequests := by
  intro s starts member
  rw [exec_frameStart_of_ownTurn starts, State.startTurn_of_member member]
  refine ⟨fun free queued => congrArg Host.Outcome.next ?_, fun held => congrArg Host.Outcome.next ?_⟩
  · have taken : s.rqu.assemble s.nextId = { s.rqu with
        outgoing := s.rqu.outgoing.drop 8, inflight := s.rqu.inflight ++ s.rqu.outgoing.take 8
        carrier := some ⟨s.trk.rotation, s.number⟩ } := by
      rw [Rqu.assemble, if_neg queued]; rfl
    rw [State.sendMember, if_pos ⟨free, member⟩, State.sendReplica_eq, taken]; rfl
  · by_cases mark : s.cmu.ownMark = none
    · have empty : s.rqu.outgoing = [] := held.resolve_left (not_not.mpr mark)
      rw [State.sendMember, if_pos ⟨mark, member⟩, State.sendReplica_eq, Rqu.assemble, if_pos empty, empty]; rfl
    · rw [State.sendMember, if_neg (fun h => mark h.1), State.sendReplica_eq]

/-- Settles O29: LEAVE when nothing is in flight in DRAINING. -/
theorem leavingStationSendsLeaveWhenDrained : Obligations.LeavingStationSendsLeaveWhenDrained := by
  intro s starts leaving
  rw [exec_frameStart_of_ownTurn starts, State.startTurn_of_leaving leaving]
  refine ⟨fun draining empty => congrArg Host.Outcome.next ?_, fun other => congrArg Host.Outcome.next ?_⟩
  · rw [State.sendLeaving, if_pos ⟨draining, empty⟩, State.sendReplica_eq]; rfl
  · rw [State.sendLeaving, if_neg (by tauto), State.sendReplica_eq]

/-- Settles O30: the JOIN from LISTENING, with its record, and from JOINING without a mark. -/
theorem joinStartsTheAttempt : Obligations.JoinStartsTheAttempt := by
  intro s starts
  rw [exec_frameStart_of_ownTurn starts]
  refine ⟨fun listening aligned => congrArg Host.Outcome.next ?_, fun joining unmarked => congrArg Host.Outcome.next ?_⟩
  · simp only [State.startTurn, listening]
    rw [if_pos aligned]; rfl
  · simp only [State.startTurn, joining]
    rw [if_pos unmarked]; rfl

/-- Settles O31: by the phase of the attempt. -/
theorem loadingStationAsksThenReportsReady : Obligations.LoadingStationAsksThenReportsReady := by
  intro s starts loading
  rw [exec_frameStart_of_ownTurn starts]
  refine ⟨fun phase => congrArg Host.Outcome.next ?_, fun confirming => congrArg Host.Outcome.next ?_⟩
  · rcases phase with e | e <;> simp only [State.startTurn, loading, e] <;> rfl
  · simp only [State.startTurn, loading, confirming, State.sendReplica_eq]

/-- The transfer frame that a serving donor sends next (R136). -/
def State.servedFrame (s : State) (p : ServePlan) : TransferFrame :=
  TransferFrame.sealed s.profile
    { sender := s.number
      moreFollows := decide (p.next + 4 < p.image.items.length) && decide (p.frames + 1 < 8)
      joiner := p.image.joiner, snapRotation := p.image.rotation, donorRotation := s.trk.rotation, first := p.next
      total := p.image.items.length, items := (p.image.items.drop p.next).take 4, check := 0 }

/-- More follows in every transfer frame but the last of the image and the eighth of the turn (R136). -/
theorem serving_goes_on (p : ServePlan) :
    (!(decide (p.image.items.length ≤ p.next + ((p.image.items.drop p.next).take 4).length) || decide (8 ≤ p.frames + 1)))
      = (decide (p.next + 4 < p.image.items.length) && decide (p.frames + 1 < 8)) := by
  rw [Bool.eq_iff_iff]
  simp only [List.length_take, List.length_drop, Bool.not_eq_true', Bool.or_eq_false_iff, decide_eq_false_iff_not,
    Bool.and_eq_true, decide_eq_true_eq]
  omega

/-- A serving donor's frame and its plan after it (R136). -/
theorem State.sendTransfer_eq (s : State) (p : ServePlan) : s.sendTransfer p
    = (s.setXfu { s.xfu with
        plan := if (s.servedFrame p).moreFollows
          then some { p with next := p.next + (s.servedFrame p).items.length, frames := p.frames + 1 }
          else none }).startFrame (.transfer (s.servedFrame p)) := by
  have more := serving_goes_on p
  simp only [State.sendTransfer, Config.itemsPerTransfer, Config.transfersPerTurn, more]
  have last : ∀ x : Option ServePlan,
      (if (decide (p.image.items.length ≤ p.next + ((p.image.items.drop p.next).take 4).length)
        || decide (8 ≤ p.frames + 1)) = true then none else x)
      = if (s.servedFrame p).moreFollows = true then x else none := fun x => by
    show _ = if (decide (p.next + 4 < p.image.items.length) && decide (p.frames + 1 < 8)) = true then x else none
    rw [← more]
    cases (decide (p.image.items.length ≤ p.next + ((p.image.items.drop p.next).take 4).length)
        || decide (8 ≤ p.frames + 1)) <;> rfl
  rw [last]; rfl

/-- Settles O32: the plan's next frame. -/
theorem donorSendsItsItemsFourToAFrame : Obligations.DonorSendsItsItemsFourToAFrame := by
  intro s p released idle quiet transmitting plan
  refine ⟨s.servedFrame p, ?_, rfl, rfl⟩
  rw [exec_frameStart released idle, State.frameMoment, if_pos quiet, transmitting, plan]
  exact congrArg Host.Outcome.next (s.sendTransfer_eq p)

/-! ### The stall of a join (R122) -/

/-- The tracker at entry to LISTENING, by the aligned flag (R98, R99). -/
theorem listeningTrk_eq (t : Trk) : listeningTrk t = t.enterListening := by
  simp [Trk.enterListening, listeningTrk, Trk.startWindow]

/-- Settles O48: the failure of R132 at the stall limit. -/
theorem stalledJoinFails : Obligations.StalledJoinFails := by
  intro s released phase stall
  refine ⟨joinFailed s .stall s.trk.rotation, (next_of_released released _).trans ?_, rfl, ?_⟩
  · rw [if_pos ⟨phase, stall.ge⟩, State.joinFail_eq]
  · show (listeningTrk s.trk).rotation = _ ∧ (listeningTrk s.trk).aligned = _ ∧ (_ → listeningTrk s.trk = _)
      ∧ (_ → (listeningTrk s.trk).holder = _ ∧ (listeningTrk s.trk).window = _)
    rw [listeningTrk_eq]
    refine ⟨Trk.enterListening_rotation _, Trk.enterListening_is_aligned _, Trk.enterListening_aligned, fun unaligned => ?_⟩
    rw [Trk.enterListening_unaligned unaligned]
    exact ⟨rfl, rfl⟩

end Sys2Proof.Machine
end

section
/-! PROOFS. What a resolution leaves at a replica: the commit of P with its application, the fate of the own mark, and the
reports of the own entry (R69 to R84). -/

namespace Sys2Proof.Machine

/-! ### The fate of the own mark (R79, R80) -/

section
variable {s : State} {m : OwnMark}

theorem State.reportFate_unmarked (b : Bool) (h : s.cmu.ownMark = none) : s.reportFate b = s := by
  rw [State.reportFate, h]

/-- The item of the mark was P, and P is committed (R79, R163). -/
theorem State.reportFate_committed (h : s.cmu.ownMark = some m) (pending : m.hole = false) :
    s.reportFate true = s.setRqu (s.rqu.frameCommitted m.id) := by
  simp [State.reportFate, h, pending]

/-- The item of the mark is voided: with P, or behind it as a hole (R79, R80). -/
theorem State.reportFate_voided {b : Bool} (h : s.cmu.ownMark = some m) (void : b = false ∨ m.hole = true) :
    s.reportFate b = (s.rquVoided m.id).stcVoided m := by
  rcases void with e | e <;> simp [State.reportFate, h, e]

/-- A frame that carries no requests returns none (R165). -/
theorem State.rquVoided_of_other {id : FrameId} (h : s.rqu.carrier ≠ some id) : s.rquVoided id = s := by
  rw [State.rquVoided, if_neg h]

/-- In MEMBER the requests return to the head of the queue (R165). -/
theorem State.rquVoided_of_member {id : FrameId} (h : s.rqu.carrier = some id) (state : s.stc.station = .member) :
    s.rquVoided id = s.setRqu { s.rqu with
      outgoing := s.rqu.inflight ++ s.rqu.outgoing, inflight := [], carrier := none } := by
  rw [State.rquVoided, if_pos h, if_neg (by simp [state])]; rfl

/-- In LEAVING, where nothing is queued, the requests end with ABORTED (R149). -/
theorem State.rquVoided_of_leaving {id : FrameId} (h : s.rqu.carrier = some id) (state : s.stc.station = .leaving)
    (empty : s.rqu.outgoing = []) : s.rquVoided id = (s.setRqu { s.rqu with
      outgoing := [], inflight := [], carrier := none
      live := s.rqu.inflight.foldl (fun l q => l.erase q.tag) s.rqu.live }).setNtq
        ((s.rqu.inflight.map (requestNote .aborted s.trk.rotation)).foldl Ntq.offer s.ntq) := by
  rw [State.rquVoided, if_pos h, if_pos state]
  apply State.ext_blocks <;> simp [Rqu.requeue, empty]
  rfl

/-- The void of an item that is no FOUND: a pending LEAVE's returns the leave phase to DRAINING (R150). -/
theorem State.stcVoided_of_other (h : m.kind ≠ .stream .found) : s.stcVoided m = s.setStc { s.stc with
    leave := if s.stc.station = .leaving ∧ m.kind = .stream .leave ∧ m.hole = false then .draining
      else s.stc.leave } := by
  rw [State.stcVoided, if_neg h]
  by_cases leave : s.stc.station = .leaving ∧ m.kind = .stream .leave ∧ m.hole = false
  · obtain ⟨state, kind, pending⟩ := leave
    simp [state, kind, pending]
  · rw [if_neg (by simp; tauto), if_neg leave]; rfl

/-- The void of an item that is neither a FOUND nor a pending LEAVE changes nothing (R80). -/
theorem State.stcVoided_of_quiet (h : m.kind ≠ .stream .found) (h' : m.kind ≠ .stream .leave ∨ m.hole = true) :
    s.stcVoided m = s := by
  rw [State.stcVoided_of_other h, if_neg (by rintro ⟨-, kind, pending⟩; simp [kind, pending] at h')]; rfl

theorem State.stcVoided_of_found (h : m.kind = .stream .found) : s.stcVoided m = s.foundVoidedExit := by
  rw [State.stcVoided, if_pos h]

end

/-! ### The commit of P (R70, R81) -/

/-- RQU after the results of a committed frame (R25, R164). -/
def resultsTaken (v : State) (p : StreamFrame) : Rqu :=
  if p.kind = .member ∧ p.sender = v.number then v.rqu.endResults p.ops.length else v.rqu

/-- The ABORTED records of an own frame's discarded operations (R23, R164). -/
def discardNotes (v : State) (p : StreamFrame) : List Note :=
  if (p.kind = .member ∧ p.sender = v.number) ∧ ((boundedTable v p).tbu.entry p.sender).isMember = false then
    (v.rqu.inflight.take p.ops.length).map (requestNote .aborted p.rotation)
  else []

/-- The stream state with P folded into C and made L (R70, R76). -/
def foldedCmu (c : Cmu) (p : StreamFrame) : Cmu :=
  { c with
    last := some ⟨⟨p.rotation, p.sender⟩, p.check⟩, check := crc (bytes32 c.check ++ bytes32 p.check), waiting := none }

/-- The station with P folded into C, made L and applied, and its results taken (R70, R81). -/
def State.withResults (v : State) (p : StreamFrame) : State :=
  { v with
    cmu := foldedCmu v.cmu p
    tbu := (application v p).tbu
    rqu := resultsTaken v p
    ntq := (recordsFor v (application v p).out ++ discardNotes v p).foldl Ntq.offer v.ntq }

/-- And the donor side brought up to date, before the reports of the own entry (R53, R81). -/
def State.withCommit (v : State) (p : StreamFrame) : State := (v.withResults p).setXfu (donorAfter v p v.xfu)

/-- A frame that brings no requests of the station's own takes no results (R25). -/
theorem resultsTaken_of_plain {v : State} {p : StreamFrame}
    (h : p.sender ≠ v.number ∨ p.kind ≠ .member ∨ p.ops = []) : resultsTaken v p = v.rqu ∧ discardNotes v p = [] := by
  rcases h with h | h | h
  · exact ⟨if_neg (fun e => h e.2), if_neg (fun e => h e.1.2)⟩
  · exact ⟨if_neg (fun e => h e.1), if_neg (fun e => h e.1.1)⟩
  · constructor
    · rw [resultsTaken, h]; split <;> rfl
    · rw [discardNotes, h]; split <;> rfl

/-- The results of a committed frame, and its discarded operations (R23, R25, R164). -/
theorem State.takeResults_eq (v : State) (p : StreamFrame) (member : Bool) : v.takeResults p (!member)
    = (v.setRqu (resultsTaken v p)).setNtq
      ((if (p.kind = .member ∧ p.sender = v.number) ∧ member = false
        then (v.rqu.inflight.take p.ops.length).map (requestNote .aborted p.rotation) else []).foldl Ntq.offer v.ntq) := by
  by_cases own : p.kind = .member ∧ p.sender = v.number
  · have yes : (decide (p.kind = .member) && decide (p.sender = v.number)) = true := by simpa using own
    rw [State.takeResults, if_pos yes, resultsTaken, if_pos own]
    cases member with
    | true => rw [if_neg (by simp), if_neg (by simp)]; rfl
    | false => rw [if_pos (show (!false) = true from rfl), if_pos ⟨own, rfl⟩]; rfl
  · have no : (decide (p.kind = .member) && decide (p.sender = v.number)) = false := by simpa using own
    simp [State.takeResults, resultsTaken, no, own]

/-- The outcomes are routed and the results taken (R15, R25). -/
theorem State.takeResults_of_application (v : State) (p : StreamFrame) :
    (((v.setCmu (foldedCmu v.cmu p)).setTbu (application v p).tbu).route (application v p).out).takeResults p
      (!((boundedTable v p).tbu.entry p.sender).isMember) = v.withResults p := by
  rw [State.takeResults_eq]
  refine State.ext_blocks rfl rfl rfl rfl rfl ?_ rfl rfl rfl rfl rfl rfl
  exact (List.foldl_append ..).symm

/-- The application of P with P made L, up to the reports of the own entry (R81). -/
theorem State.applyCommitted_eq (v : State) (p : StreamFrame) : (v.setCmu (foldedCmu v.cmu p)).applyCommitted p
    = (v.withCommit p).ownEntryReport p v.tbu (boundedTable v p).tbu := by
  have donor := State.syncImage_xfu (s := v) (t := v.withResults p) (p := p) rfl rfl rfl rfl rfl
  have synced : (v.withResults p).syncImage p ((v.withResults p).namedDonor p (boundedTable v p).tbu) = v.withCommit p := by
    refine State.ext_blocks ?_ ?_ ?_ ?_ ?_ ?_ donor ?_ ?_ ?_ ?_ ?_ <;> simp [State.withCommit]
  refine Eq.trans ?_ (congrArg (fun t : State => t.ownEntryReport p v.tbu (boundedTable v p).tbu) synced)
  refine congrArg (fun t : State => (t.syncImage p ((v.withResults p).namedDonor p
    (boundedTable v p).tbu)).ownEntryReport p v.tbu (boundedTable v p).tbu) ?_
  exact v.takeResults_of_application p

/-! ### The reports of the own entry (R64, R65, R130) -/

section
variable {t : State} {p : StreamFrame} {before bounded : Tbu}

/-- In MEMBER and LEAVING an own entry that the boundaries leave as it was, in a frame that is no own LEAVE, is not reported
(R64). -/
theorem State.ownEntryReport_of_present (state : t.stc.station = .member ∨ t.stc.station = .leaving)
    (present : (before.entry t.number).isMember = true → (bounded.entry t.number).isMember = true)
    (notLeave : p.kind ≠ .leave ∨ p.sender ≠ t.number ∨ (bounded.entry t.number).isMember = false) :
    t.ownEntryReport p before bounded = t := by
  have report : t.memberReport p before bounded = t := by
    unfold State.memberReport
    rw [if_neg, if_neg]
    · simp only [Bool.and_eq_true, decide_eq_true_eq]
      rintro ⟨⟨leave, own⟩, member⟩
      rcases notLeave with h | h | h
      · exact h leave
      · exact h own
      · simp [h] at member
    · simp only [Bool.and_eq_true, Bool.not_eq_true']
      rintro ⟨was, gone⟩
      simp [present was] at gone
  rcases state with e | e <;> rw [State.ownEntryReport, e] <;> exact report

/-- Self-absence (R64, R153). -/
theorem State.ownEntryReport_of_absent (state : t.stc.station = .member ∨ t.stc.station = .leaving)
    (was : (before.entry t.number).isMember = true) (gone : (bounded.entry t.number).isMember = false) :
    t.ownEntryReport p before bounded = t.absentExit p.rotation := by
  have report : t.memberReport p before bounded = t.absentExit p.rotation := by
    rw [State.memberReport, if_pos (by simp [was, gone])]
  rcases state with e | e <;> rw [State.ownEntryReport, e] <;> exact report

/-- The commit of the own LEAVE (R65, R151). -/
theorem State.ownEntryReport_of_leave (state : t.stc.station = .leaving) (leave : p.kind = .leave)
    (own : p.sender = t.number) (member : (bounded.entry t.number).isMember = true) :
    t.ownEntryReport p before bounded = t.leaveComplete p.rotation := by
  simp only [State.ownEntryReport, state]
  rw [State.memberReport, if_neg (by simp [member]), if_pos (by simp [leave, own, member])]

end

/-! ### The end of a resolution (R75) -/

theorem State.finishResolution_of_replica {t : State} (h : t.isReplica = true) (g : StreamFrame) (own : Bool) :
    t.finishResolution g own = t.setCmu (t.cmu.clean g own) := by
  rw [State.finishResolution, if_pos h]

theorem State.finishResolution_of_left {t : State} (h : t.isReplica = false) (g : StreamFrame) (own : Bool) :
    t.finishResolution g own = t.clearStream := by
  rw [State.finishResolution, if_neg (by simp [h])]

theorem State.isReplica_of_resolving {t : State} (h : t.stc.station = .member ∨ t.stc.station = .leaving) :
    t.isReplica = true :=
  h.elim State.isReplica_of_member State.isReplica_of_leaving

section
variable {v : State} {p g : StreamFrame} {own : Bool}

/-- A frame that names P commits it, and what is left goes on or has left the replica states (R70, R75). -/
theorem State.resolve_of_confirms (h : Confirms v.cmu p g) : v.resolve g own =
    ((if ((v.withCommit p).ownEntryReport p v.tbu (boundedTable v p).tbu).isReplica
      then ((v.withCommit p).ownEntryReport p v.tbu (boundedTable v p).tbu).reportFate true
      else (v.withCommit p).ownEntryReport p v.tbu (boundedTable v p).tbu)).finishResolution g own := by
  rw [State.resolve, Cmu.resolution_of_confirms h, ← State.applyCommitted_eq]
  rfl

/-- P is committed at a station that goes on resolving. -/
theorem State.resolve_of_confirms_replica {t : State} (h : Confirms v.cmu p g)
    (report : (v.withCommit p).ownEntryReport p v.tbu (boundedTable v p).tbu = t) (replica : t.isReplica = true) :
    v.resolve g own = (t.reportFate true).finishResolution g own := by
  rw [State.resolve_of_confirms h, report, if_pos replica]

/-- P is committed at a station that leaves the replica states by it. -/
theorem State.resolve_of_confirms_left {t : State} (h : Confirms v.cmu p g)
    (report : (v.withCommit p).ownEntryReport p v.tbu (boundedTable v p).tbu = t) (left : t.isReplica = false) :
    v.resolve g own = t.clearStream := by
  rw [State.resolve_of_confirms h, report, if_neg (by simp [left]), State.finishResolution_of_left left]

/-- A frame that names L voids P and the holes (R71). -/
theorem State.resolve_of_denies (h : Denies v.cmu g) : v.resolve g own = (v.reportFate false).finishResolution g own := by
  rw [State.resolve, Cmu.resolution_of_denies h]; rfl

/-- A discordant frame is counted, the first of it (R74). -/
theorem State.resolve_of_discordant (h : IsDiscordant v.cmu g) : v.resolve g own = v.discord g := by
  rw [State.resolve, Cmu.resolution_of_discordant h]

/-- A discordant frame of one sender is counted once (R74). -/
theorem State.discord_of_counted (h : v.cmu.discordance = 0 ∨ (v.cmu.discordance = 1 ∧ v.cmu.discordSender = some g.sender)) :
    v.discord g = v.setCmu { v.cmu with discordance := 1, discordSender := some g.sender } := by
  rcases h with first | ⟨one, same⟩
  · rw [State.discord, if_pos first]
  · rw [State.discord, if_neg (by simp [one]), if_pos same, ← one, ← same]; rfl

/-- A second sender's discordance is a divergence (R74, R84). -/
theorem State.discord_of_second (one : v.cmu.discordance = 1) (other : v.cmu.discordSender ≠ some g.sender) :
    v.discord g = v.diverge g .discordant := by
  rw [State.discord, if_neg (by simp [one]), if_neg other]

/-- The two causes of a divergence (R72, R74, R84). -/
theorem State.resolve_of_divergence {cause : DivergeCause}
    (h : (cause = .missed ∧ NamesUnknown v.cmu g ∧ v.cmu.holes ≠ 0)
      ∨ (cause = .discordant ∧ IsDiscordant v.cmu g ∧ v.cmu.discordance = 1 ∧ v.cmu.discordSender ≠ some g.sender)) :
    v.resolve g own = v.diverge g cause := by
  rcases h with ⟨rfl, unknown, holes⟩ | ⟨rfl, discordant, one, other⟩
  · rw [State.resolve, Cmu.resolution_of_unknown unknown, if_neg holes]
  · rw [State.resolve_of_discordant discordant, State.discord_of_second one other]

end

end Sys2Proof.Machine
end

section
/-! PROOFS. Stream frames delivered in MEMBER and LEAVING: P committed and voided, discordance, divergence, and the ways out
(R69 to R84, R146 to R153). -/

namespace Sys2Proof.Machine

/-! ### Delivery to a replica (R67, R68, R105) -/

section
variable {s : State} {g : StreamFrame} (hd : DeliversStream s g)
  (state : s.stc.station = .member ∨ s.stc.station = .leaving)
include hd state

/-- A stream frame is resolved at the station that has taken it and heard it last, and then read by the donor (R67, R68,
R134). -/
theorem exec_delivery_to_member {t : State}
    (resolved : (takenFrame s g).resolve g (decide (g.sender = s.number)) = t) (idle : t.xfu.phase = .idle) :
    exec .itemDelivery s = .next (t.setXfu (servedXfu t.xfu g)) := by
  obtain ⟨notFound, -⟩ := id hd
  refine (execItemDelivery_stream hd).trans (congrArg Host.Outcome.next ?_)
  have taken : (s.adopted g).cmuItem (.stream g) (decide (g.sender = s.number)) s.ownSent s.trk.rotation = t := by
    rw [← resolved]
    rcases state with e | e <;> simp only [State.cmuItem, State.adopted_stc, e, State.replicaItem, if_neg notFound] <;> rfl
  rw [taken, State.xfuItem, idle, ← Xfu.readRequest_eq]

/-- A resolution after which the station goes on: G is the new P (R75). -/
theorem exec_delivery_resolved {t : State} {c : Cmu}
    (resolved : (takenFrame s g).resolve g (decide (g.sender = s.number)) = t.finishResolution g (decide (g.sender = s.number)))
    (replica : t.stc.station = .member ∨ t.stc.station = .leaving) (idle : t.xfu.phase = .idle)
    (cmu : t.cmu = { c with lastHeard := some ⟨⟨g.rotation, g.sender⟩, g.check⟩ }) :
    exec .itemDelivery s = .next ((t.setCmu (resolvedBy s c g)).setXfu (servedXfu t.xfu g)) := by
  rw [State.finishResolution_of_replica (State.isReplica_of_resolving replica), cmu, Cmu.clean_eq] at resolved
  exact exec_delivery_to_member hd state resolved idle

/-- A resolution by which the station leaves the replica states: no image is left to read for (R86, R138). -/
theorem exec_delivery_left {t : State} (resolved : (takenFrame s g).resolve g (decide (g.sender = s.number)) = t)
    (idle : t.xfu.phase = .idle) (noImage : t.xfu.image = none) : exec .itemDelivery s = .next t := by
  rw [exec_delivery_to_member hd state resolved idle]
  refine congrArg Host.Outcome.next (State.ext_blocks rfl rfl rfl rfl rfl rfl ?_ rfl rfl rfl rfl rfl)
  show servedXfu t.xfu g = t.xfu
  rw [← Xfu.readRequest_eq, Xfu.readRequest, noImage]

end

/-- Capturing and releasing an image leave the phase of an attempt. -/
theorem donorAfter_phase (s : State) (p : StreamFrame) (x : Xfu) : (donorAfter s p x).phase = x.phase := by
  unfold donorAfter; split_ifs <;> rfl

theorem donorAfter_release (s : State) (p : StreamFrame) (x : Xfu) : (donorAfter s p x).release = x.release := by
  unfold donorAfter; split_ifs <;> rfl

/-! ### P is committed, and the station goes on (R70, R75) -/

section
variable {s : State} {g : StreamFrame} (hd : DeliversStream s g)
  (state : s.stc.station = .member ∨ s.stc.station = .leaving) (idle : s.xfu.phase = .idle)
include hd state idle

/-- The station after a commit that leaves it in its state, by what the fate of the own mark makes of its requests. -/
theorem exec_delivery_commit {p : StreamFrame} {u : Rqu} {q : Ntq} (confirms : Confirms s.cmu p g)
    (present : (s.tbu.entry s.number).isMember = true → ((boundedTable s p).tbu.entry s.number).isMember = true)
    (notLeave : p.kind ≠ .leave ∨ p.sender ≠ s.number ∨ ((boundedTable s p).tbu.entry s.number).isMember = false)
    (fate : ((takenFrame s g).withCommit p).reportFate true = (((takenFrame s g).withCommit p).setRqu u).setNtq q) :
    exec .itemDelivery s = .next { s with
      lif := deliveredLif s.lif
      trk := adoptedTrk s g
      cmu := committedBy s p g
      tbu := (application s p).tbu
      rqu := u
      ntq := q
      xfu := servedXfu (donorAfter s p (adoptedXfu s g)) g } := by
  have report : ((takenFrame s g).withCommit p).ownEntryReport p (takenFrame s g).tbu (boundedTable (takenFrame s g) p).tbu
      = (takenFrame s g).withCommit p :=
    State.ownEntryReport_of_present (t := (takenFrame s g).withCommit p) state present notLeave
  have replica : ((takenFrame s g).withCommit p).isReplica = true := State.isReplica_of_resolving state
  have resolved := fun own => State.resolve_of_confirms_replica (v := takenFrame s g) (own := own) confirms report replica
  rw [fate] at resolved
  exact exec_delivery_resolved hd state (c := foldedCmu s.cmu p) (resolved _) state
    ((donorAfter_phase s p (adoptedXfu s g)).trans idle) rfl

/-- P and the holes are voided (R71), by what the fate of the own mark makes of the requests and the leave phase. -/
theorem exec_delivery_void {u : Rqu} {q : Ntq} {l : LeavePhase} (denies : Denies s.cmu g)
    (fate : (takenFrame s g).reportFate false
      = (((takenFrame s g).setRqu u).setNtq q).setStc { s.stc with leave := l }) :
    exec .itemDelivery s = .next { s with
      lif := deliveredLif s.lif
      trk := adoptedTrk s g
      cmu := resolvedBy s s.cmu g
      rqu := u
      ntq := q
      xfu := servedXfu (adoptedXfu s g) g
      stc := { s.stc with leave := l } } := by
  have resolved := fun own => State.resolve_of_denies (v := takenFrame s g) (own := own) denies
  rw [fate] at resolved
  exact exec_delivery_resolved hd state (c := s.cmu) (resolved _) state idle rfl

end

/-- A state with its own Request Unit and Notification Queue put in. -/
theorem State.eq_setRqu_setNtq {t : State} {u : Rqu} {q : Ntq} (rqu : t.rqu = u) (ntq : t.ntq = q) :
    t = (t.setRqu u).setNtq q := by
  rw [← rqu, ← ntq]; rfl

theorem State.setRqu_eq_setNtq {t : State} {u : Rqu} {q : Ntq} (ntq : t.ntq = q) :
    t.setRqu u = (t.setRqu u).setNtq q := by
  rw [← ntq]; rfl

/-- A frame that brings no requests of the station's own: another station's, no MEMBER frame, or one without operations. -/
theorem withCommit_of_plain {v : State} {p : StreamFrame} (h : p.sender ≠ v.number ∨ p.kind ≠ .member ∨ p.ops = []) :
    (v.withCommit p).rqu = v.rqu
      ∧ (v.withCommit p).ntq = (recordsFor v (application v p).out).foldl Ntq.offer v.ntq := by
  obtain ⟨results, discards⟩ := resultsTaken_of_plain h
  refine ⟨results, ?_⟩
  show (recordsFor v (application v p).out ++ discardNotes v p).foldl Ntq.offer v.ntq = _
  rw [discards, List.append_nil]

theorem withCommit_takenFrame_of_plain {s : State} {p : StreamFrame} (g : StreamFrame)
    (h : p.sender ≠ s.number ∨ (p.kind = .member ∧ p.ops = [])) : ((takenFrame s g).withCommit p).rqu = s.rqu
      ∧ ((takenFrame s g).withCommit p).ntq = (recordsFor s (application s p).out).foldl Ntq.offer s.ntq :=
  withCommit_of_plain (v := takenFrame s g) (h.imp_right fun e => .inr e.2)

/-- Another station's frame, or an own one without operations, is no own LEAVE. -/
theorem not_own_leave {p : StreamFrame} {k : Nat} (h : p.sender ≠ k ∨ (p.kind = .member ∧ p.ops = [])) (b : Prop) :
    p.kind ≠ .leave ∨ p.sender ≠ k ∨ b :=
  h.elim (fun h => .inr (.inl h)) fun ⟨member, _⟩ => .inl (by simp [member])

/-- Settles O35: no mark, so the commit touches no request. -/
theorem confirmingEchoCommitsThePendingFrame : Obligations.ConfirmingEchoCommitsThePendingFrame := by
  intro s p g hd state idle confirms unmarked plain present
  obtain ⟨rqu, ntq⟩ := withCommit_takenFrame_of_plain g plain
  have fate : ((takenFrame s g).withCommit p).reportFate true = _ := State.reportFate_unmarked true unmarked
  exact exec_delivery_commit hd state idle confirms present (not_own_leave plain _)
    (fate.trans (State.eq_setRqu_setNtq rqu ntq))

/-! ### The commit of an own frame (R25, R79, R164) -/

/-- The own operations' results end every request in flight (R164). -/
theorem resultsTaken_of_own {v : State} {p : StreamFrame} (member : p.kind = .member) (own : p.sender = v.number)
    (all : v.rqu.inflight.length = p.ops.length) : resultsTaken v p = { v.rqu with
      inflight := [], live := v.rqu.inflight.foldl (fun l q => l.erase q.tag) v.rqu.live } := by
  rw [resultsTaken, if_pos ⟨member, own⟩, Rqu.endResults, ← all, List.drop_length, List.take_length]; rfl

theorem Rqu.frameCommitted_of_carrier {u : Rqu} {id : FrameId} (h : u.carrier = some id) :
    u.frameCommitted id = { u with carrier := none } := if_pos h

theorem Rqu.frameCommitted_of_other {u : Rqu} {id : FrameId} (h : u.carrier ≠ some id) : u.frameCommitted id = u :=
  if_neg h

/-- The effect of a MEMBER frame (R22, R23). -/
theorem frameEffect_of_member {n : Nat} {f : StreamFrame} {a : App} (h : f.kind = .member) :
    frameEffect n f a = a.memberEffect f.sender f.rotation f.ops := by
  rw [frameEffect, h]

/-- A discarded own frame has no effect (R23). -/
theorem application_of_discarded {s : State} {p : StreamFrame} (member : p.kind = .member)
    (gone : ((boundedTable s p).tbu.entry p.sender).isMember = false) : application s p = boundedTable s p := by
  rw [application, frameEffect_of_member member, App.memberEffect, if_neg (by simp [gone])]

section
variable {s : State} {p g : StreamFrame} (hd : DeliversStream s g)
  (state : s.stc.station = .member ∨ s.stc.station = .leaving) (idle : s.xfu.phase = .idle)
  (confirms : Confirms s.cmu p g) (own : p.sender = s.number)
  (mark : s.cmu.ownMark = some ⟨⟨p.rotation, p.sender⟩, .stream p.kind, false⟩)
  (present : (s.tbu.entry s.number).isMember = true → ((boundedTable s p).tbu.entry s.number).isMember = true)
include hd state idle confirms own mark present

/-- The commit of the own MEMBER frame ends all of its requests, with the outcomes or with ABORTED. -/
theorem exec_delivery_commit_own (member : p.kind = .member) (carried : s.rqu.carrier = some ⟨p.rotation, p.sender⟩)
    (all : s.rqu.inflight.length = p.ops.length) :
    exec .itemDelivery s = .next { s with
      lif := deliveredLif s.lif
      trk := adoptedTrk s g
      cmu := committedBy s p g
      tbu := (application s p).tbu
      rqu := { s.rqu with
        inflight := [], carrier := none
        live := s.rqu.inflight.foldl (fun l q => l.erase q.tag) s.rqu.live }
      ntq := (recordsFor s (application s p).out ++ discardNotes s p).foldl Ntq.offer s.ntq
      xfu := servedXfu (donorAfter s p (adoptedXfu s g)) g } := by
  have results : resultsTaken (takenFrame s g) p = { s.rqu with
      inflight := [], live := s.rqu.inflight.foldl (fun l q => l.erase q.tag) s.rqu.live } :=
    resultsTaken_of_own (v := takenFrame s g) member own all
  have fate : ((takenFrame s g).withCommit p).reportFate true = ((takenFrame s g).withCommit p).setRqu
      ((resultsTaken (takenFrame s g) p).frameCommitted ⟨p.rotation, p.sender⟩) :=
        State.reportFate_committed (s := (takenFrame s g).withCommit p) mark rfl
  rw [results, Rqu.frameCommitted_of_carrier (u := { s.rqu with
    inflight := [], live := s.rqu.inflight.foldl (fun l q => l.erase q.tag) s.rqu.live }) carried] at fate
  exact exec_delivery_commit hd state idle confirms present (.inl (by simp [member])) fate

omit own in
/-- The commit of another own frame ends no request. -/
theorem exec_delivery_commit_other (notMember : p.kind ≠ .member) (notLeave : p.kind ≠ .leave)
    (other : s.rqu.carrier ≠ some ⟨p.rotation, p.sender⟩) :
    exec .itemDelivery s = .next { s with
      lif := deliveredLif s.lif
      trk := adoptedTrk s g
      cmu := committedBy s p g
      tbu := (application s p).tbu
      ntq := (recordsFor s (application s p).out).foldl Ntq.offer s.ntq
      xfu := servedXfu (donorAfter s p (adoptedXfu s g)) g } := by
  obtain ⟨rqu, ntq⟩ := withCommit_of_plain (v := takenFrame s g) (p := p) (.inr (.inl notMember))
  have fate : ((takenFrame s g).withCommit p).reportFate true = ((takenFrame s g).withCommit p).setRqu
      (((takenFrame s g).withCommit p).rqu.frameCommitted ⟨p.rotation, p.sender⟩) :=
        State.reportFate_committed (s := (takenFrame s g).withCommit p) mark rfl
  rw [rqu, Rqu.frameCommitted_of_other (u := (takenFrame s g).rqu) other] at fate
  exact exec_delivery_commit hd state idle confirms present (.inl notLeave)
    (fate.trans (State.eq_setRqu_setNtq rfl ntq))

end

/-- Settles O36: the effect of a MEMBER frame is a fold of its operations; the own mark, no hole, ends what the frame
carried. -/
theorem committedOwnFrameEndsItsRequests : Obligations.CommittedOwnFrameEndsItsRequests := by
  refine ⟨fun n f a member => ⟨fun gone => ?_, fun present => ?_⟩, fun s p g hd state idle confirms own mark present =>
    ⟨fun notMember notLeave other => ?_, fun member carried all gone => ?_⟩,
    fun s p g hd state idle confirms member own mark carried all present => ?_⟩
  · rw [frameEffect_of_member member, App.memberEffect, if_neg (by simp [gone])]
  · rw [frameEffect_of_member member, App.memberEffect, if_pos present]
    refine congrArg₂ (fun op b => List.foldl op b f.ops) (funext fun b => funext fun q => ?_) rfl
    rw [App.operation]
    cases q.kind <;> cases q.mode <;> rfl
  · exact exec_delivery_commit_other hd state idle confirms mark present notMember notLeave other
  · have discarded : discardNotes s p = s.rqu.inflight.map (requestNote .aborted p.rotation) := by
      rw [discardNotes, if_pos ⟨⟨member, own⟩, by rw [own]; exact gone⟩, ← all, List.take_length]
    rw [exec_delivery_commit_own hd state idle confirms own mark present member carried all, discarded,
      application_of_discarded member (by rw [own]; exact gone)]
  · have kept : discardNotes s p = [] := if_neg (by rintro ⟨-, gone⟩; rw [own, present] at gone; cases gone)
    rw [← member] at mark
    rw [exec_delivery_commit_own hd state idle confirms own mark (fun _ => present) member carried all, kept,
      List.append_nil]

/-! ### The void of an own frame (R79, R80, R146, R149, R150, R165) -/

section
variable {v : State} {m : OwnMark} {b : Bool} (mark : v.cmu.ownMark = some m) (void : b = false ∨ m.hole = true)
include mark void

/-- The void of an own frame, no FOUND, that carries no requests. -/
theorem State.reportFate_of_idle (other : v.rqu.carrier ≠ some m.id) (notFound : m.kind ≠ .stream .found) :
    v.reportFate b = v.setStc { v.stc with
      leave := if v.stc.station = .leaving ∧ m.kind = .stream .leave ∧ m.hole = false then .draining
        else v.stc.leave } := by
  rw [State.reportFate_voided mark void, State.rquVoided_of_other other, State.stcVoided_of_other notFound]

/-- The void of the MEMBER frame that carries the requests, in MEMBER. -/
theorem State.reportFate_of_returned (member : m.kind = .stream .member) (carried : v.rqu.carrier = some m.id)
    (state : v.stc.station = .member) : v.reportFate b = v.setRqu { v.rqu with
      outgoing := v.rqu.inflight ++ v.rqu.outgoing, inflight := [], carrier := none } := by
  rw [State.reportFate_voided mark void, State.rquVoided_of_member carried state,
    State.stcVoided_of_quiet (by simp [member]) (.inl (by simp [member]))]

/-- The void of the MEMBER frame that carries the requests, in LEAVING, where nothing is queued. -/
theorem State.reportFate_of_ended (member : m.kind = .stream .member) (carried : v.rqu.carrier = some m.id)
    (state : v.stc.station = .leaving) (empty : v.rqu.outgoing = []) : v.reportFate b = (v.setRqu { v.rqu with
      outgoing := [], inflight := [], carrier := none
      live := v.rqu.inflight.foldl (fun l q => l.erase q.tag) v.rqu.live }).setNtq
        ((v.rqu.inflight.map (requestNote .aborted v.trk.rotation)).foldl Ntq.offer v.ntq) := by
  rw [State.reportFate_voided mark void, State.rquVoided_of_leaving carried state empty,
    State.stcVoided_of_quiet (by simp [member]) (.inl (by simp [member]))]

end

/-- Without an attempt the adoption of a frame leaves the joiner side as it was (R90, R122). -/
theorem adoptedXfu_release {s : State} (g : StreamFrame) (idle : s.xfu.phase = .idle) :
    (adoptedXfu s g).release = { s.xfu with image := none, joinerWanted := 0, plan := none } := by
  rw [adoptedXfu, stallAfter_other _ _ _ (by simp [idle]) (by simp [idle])]; rfl

theorem State.isReplica_of_listening {t : State} (h : t.stc.station = .listening) : t.isReplica = false := by
  rw [State.isReplica, h]

theorem State.isReplica_of_detached {t : State} (h : t.stc.station = .detached) : t.isReplica = false := by
  rw [State.isReplica, h]

/-- A frame taken aligns the tracker, so LISTENING follows its turns (R89, R98). -/
theorem adoptedTrk_enterListening (s : State) (g : StreamFrame) : (adoptedTrk s g).enterListening = adoptedTrk s g := by
  have followed : (adoptedTrk s g).aligned = true ∧ (adoptedTrk s g).window = none := by
    unfold adoptedTrk adoptedFrom
    cases g.moreFollows <;> exact ⟨rfl, rfl⟩
  rw [Trk.enterListening_aligned followed.1, ← followed.2]

/-- A record offered behind others. -/
theorem offers_concat (l : List Note) (n : Note) (q : Ntq) :
    (l.foldl Ntq.offer q).offer n = (l ++ [n]).foldl Ntq.offer q :=
  (List.foldl_append (f := Ntq.offer) (b := q) (l := l) (l' := [n])).symm

/-- The station after it has left the replica states at a stream frame, by the records, requests and state it leaves with. -/
def departed (s : State) (g : StreamFrame) (station : StationState) (u : Rqu) (q : Ntq) : State :=
  { s with
    lif := deliveredLif s.lif
    trk := adoptedTrk s g
    cmu := { Cmu.cleared with lastHeard := some ⟨⟨g.rotation, g.sender⟩, g.check⟩, foundReported := s.cmu.foundReported }
    tbu := Tbu.cleared
    rqu := u
    ntq := q
    xfu := { s.xfu with image := none, joinerWanted := 0, plan := none }
    stc := { s.stc with station := station, leave := .idle } }

section
variable {s : State} {g : StreamFrame}

theorem exec_delivery_departs {st : StationState} {u : Rqu} {q : Ntq} (hd : DeliversStream s g)
    (state : s.stc.station = .member ∨ s.stc.station = .leaving) (idle : s.xfu.phase = .idle)
    (resolved : (takenFrame s g).resolve g (decide (g.sender = s.number)) = departed s g st u q) :
    exec .itemDelivery s = .next (departed s g st u q) :=
  exec_delivery_left hd state resolved idle rfl

theorem foundVoidedExit_departs (idle : s.xfu.phase = .idle) : (takenFrame s g).foundVoidedExit.clearStream
    = departed s g .listening
      { s.rqu with outgoing := [], live := s.rqu.outgoing.foldl (fun l q => l.erase q.tag) s.rqu.live }
      ((s.rqu.outgoing.map (requestNote .aborted (adoptedTrk s g).rotation)
        ++ [stateNote .listening .absent none (adoptedTrk s g).rotation]).foldl Ntq.offer s.ntq) :=
  State.ext_blocks rfl (adoptedTrk_enterListening s g) rfl rfl rfl (offers_concat _ _ _) (adoptedXfu_release g idle)
    rfl rfl rfl rfl rfl

end

/-- Settles O37: the mark's frame is voided by a frame that names L, or, a hole, by the commit of P before it. -/
theorem voidedOwnFrameReturnsItsRequests : Obligations.VoidedOwnFrameReturnsItsRequests := by
  refine ⟨fun s g hd state idle denies => ⟨fun unmarked => ?_, fun m mark other notFound => ?_,
      fun m mark other found => ?_⟩,
    fun s p g m hd state idle confirms mark hole notFound other plain present => ?_,
    fun s g m hd idle mark member carried => ⟨fun denies => ⟨fun state => ?_, fun state empty => ?_⟩,
      fun p confirms hole plain present => ⟨fun state => ?_, fun state empty => ?_⟩⟩⟩
  · exact exec_delivery_void hd state idle denies (State.reportFate_unmarked (s := takenFrame s g) false unmarked)
  · exact exec_delivery_void hd state idle denies
      (State.reportFate_of_idle (v := takenFrame s g) mark (.inl rfl) other notFound)
  · have fate : (takenFrame s g).reportFate false = (takenFrame s g).foundVoidedExit := by
      rw [State.reportFate_voided (s := takenFrame s g) mark (.inl rfl), State.rquVoided_of_other (s := takenFrame s g) other,
        State.stcVoided_of_found found]
    have left : (takenFrame s g).foundVoidedExit.isReplica = false := State.isReplica_of_listening (by simp)
    refine exec_delivery_departs hd state idle (Eq.trans ?_ (foundVoidedExit_departs idle))
    rw [State.resolve_of_denies (v := takenFrame s g) denies, fate, State.finishResolution_of_left left]
  · obtain ⟨rqu, ntq⟩ := withCommit_takenFrame_of_plain g plain
    have fate := State.reportFate_of_idle (v := (takenFrame s g).withCommit p) (b := true) mark (.inr hole)
      (by rw [rqu]; exact other) notFound
    rw [if_neg (by simp [hole])] at fate
    exact exec_delivery_commit hd state idle confirms present (not_own_leave plain _)
      (fate.trans (State.eq_setRqu_setNtq rqu ntq))
  · exact exec_delivery_void hd (.inl state) idle denies
      (State.reportFate_of_returned (v := takenFrame s g) mark (.inl rfl) member carried state)
  · exact exec_delivery_void hd (.inr state) idle denies
      (State.reportFate_of_ended (v := takenFrame s g) mark (.inl rfl) member carried state empty)
  · obtain ⟨rqu, ntq⟩ := withCommit_takenFrame_of_plain g plain
    have fate := State.reportFate_of_returned (v := (takenFrame s g).withCommit p) (b := true) mark (.inr hole) member
      (by rw [rqu]; exact carried) state
    rw [rqu] at fate
    exact exec_delivery_commit hd (.inl state) idle confirms present (not_own_leave plain _) 
      (fate.trans (State.setRqu_eq_setNtq ntq))
  · obtain ⟨rqu, ntq⟩ := withCommit_takenFrame_of_plain g plain
    have fate := State.reportFate_of_ended (v := (takenFrame s g).withCommit p) (b := true) mark (.inr hole) member
      (by rw [rqu]; exact carried) state (by rw [rqu]; exact empty)
    rw [rqu, ntq, ← List.foldl_append] at fate
    exact exec_delivery_commit hd (.inr state) idle confirms present (not_own_leave plain _) fate

/-! ### Discordance and divergence (R72 to R74, R84, R152) -/

/-- Settles O38: the frame is counted, and nothing is resolved. -/
theorem discordantFrameIsIgnoredAndCounted : Obligations.DiscordantFrameIsIgnoredAndCounted := by
  intro s g hd state idle discordant counted
  have resolved : (takenFrame s g).resolve g (decide (g.sender = s.number)) = (takenFrame s g).setCmu
      { (takenFrame s g).cmu with discordance := 1, discordSender := some g.sender } := by
    rw [State.resolve_of_discordant (v := takenFrame s g) discordant, State.discord_of_counted (v := takenFrame s g) counted]
  exact exec_delivery_to_member hd state resolved idle

/-- No requests are left, and their tags are free (R166). -/
def requestsGone (u : Rqu) : Rqu :=
  { outgoing := [], inflight := [], carrier := none
    live := (u.inflight ++ u.outgoing).foldl (fun l q => l.erase q.tag) u.live }

theorem diverge_departs {s : State} {g : StreamFrame} (state : s.stc.station = .member ∨ s.stc.station = .leaving)
    (idle : s.xfu.phase = .idle) (cause : DivergeCause) : (takenFrame s g).diverge g cause
    = departed s g .listening (requestsGone s.rqu)
      ((stationNote .diverged g.rotation (.cause cause)
        :: (s.rqu.inflight ++ s.rqu.outgoing).map (requestNote .aborted (adoptedTrk s g).rotation)
        ++ [stateNote .listening .diverged none (adoptedTrk s g).rotation]).foldl Ntq.offer s.ntq) := by
  have notLoading : (takenFrame s g).stc.station ≠ .loading := by
    rcases state with e | e <;> simp [takenFrame, e]
  rw [State.diverge, if_neg notLoading]
  exact State.ext_blocks rfl (adoptedTrk_enterListening s g) rfl rfl (State.divergedExit_rqu _)
    ((State.divergedExit_ntq _).trans (offers_concat _ _ _)) (adoptedXfu_release g idle) rfl rfl rfl rfl rfl

/-- Settles O39: both causes take the one exit. -/
theorem divergenceReturnsToListening : Obligations.DivergenceReturnsToListening := by
  intro s g cause hd state idle h
  exact exec_delivery_departs hd state idle
    ((State.resolve_of_divergence (v := takenFrame s g) h).trans (diverge_departs state idle cause))

/-! ### The own LEAVE, and self-absence (R64, R65, R151, R153) -/

/-- Settles O41: the report of the own entry is the exit of the LEAVE. -/
theorem ownLeaveCommittedDetaches : Obligations.OwnLeaveCommittedDetaches := by
  intro s p g hd state idle confirms leave own member
  have report : ((takenFrame s g).withCommit p).ownEntryReport p (takenFrame s g).tbu (boundedTable (takenFrame s g) p).tbu
      = ((takenFrame s g).withCommit p).leaveComplete p.rotation :=
    State.ownEntryReport_of_leave (t := (takenFrame s g).withCommit p) state leave own member
  obtain ⟨rqu, ntq⟩ := withCommit_of_plain (v := takenFrame s g) (p := p) (.inr (.inl (by simp [leave])))
  have departs : (((takenFrame s g).withCommit p).leaveComplete p.rotation).clearStream = departed s g .detached s.rqu
      ((recordsFor s (application s p).out ++ [stateNote .detached .left none p.rotation]).foldl Ntq.offer s.ntq) :=
    State.ext_blocks rfl rfl rfl rfl rqu ((congrArg (Ntq.offer · _) ntq).trans (offers_concat _ _ _))
      ((donorAfter_release s p _).trans (adoptedXfu_release g idle)) rfl rfl rfl rfl rfl
  exact exec_delivery_departs hd (.inr state) idle
    ((State.resolve_of_confirms_left (v := takenFrame s g) confirms report (State.isReplica_of_detached rfl)).trans departs)

/-- The requests that the results of a committed frame end, and then the abort of all that are left (R23, R153). -/
theorem requestsGone_resultsTaken (v : State) (p : StreamFrame) : requestsGone (resultsTaken v p) = requestsGone v.rqu := by
  rw [resultsTaken]
  split
  · show ({ outgoing := [], inflight := [], carrier := none, live := dropTags (v.rqu.inflight.drop p.ops.length
      ++ v.rqu.outgoing) (dropTags (v.rqu.inflight.take p.ops.length) v.rqu.live) } : Rqu) = _
    rw [dropTags, dropTags, ← List.foldl_append, ← List.append_assoc, List.take_append_drop]
    rfl
  · rfl

/-- The requests discarded with the own frame come first, then those left in flight (R23). -/
theorem discarded_requests {v : State} {p : StreamFrame}
    (gone : ((boundedTable v p).tbu.entry v.number).isMember = false) :
    let discarded := if p.kind = .member ∧ p.sender = v.number then p.ops.length else 0
    discardNotes v p = (v.rqu.inflight.take discarded).map (requestNote .aborted p.rotation)
      ∧ (resultsTaken v p).inflight = v.rqu.inflight.drop discarded ∧ (resultsTaken v p).outgoing = v.rqu.outgoing := by
  by_cases own : p.kind = .member ∧ p.sender = v.number
  · simp only [if_pos own]
    refine ⟨if_pos ⟨own, by rw [own.2]; exact gone⟩, ?_, ?_⟩ <;> rw [resultsTaken, if_pos own] <;> rfl
  · simp only [if_neg own]
    exact ⟨if_neg (fun h => own h.1), by rw [resultsTaken, if_neg own]; rfl, by rw [resultsTaken, if_neg own]⟩

/-- Settles O42: the report of the own entry is the exit of self-absence. -/
theorem selfAbsenceReturnsToListening : Obligations.SelfAbsenceReturnsToListening := by
  intro s p g hd state idle confirms was gone discarded
  have report : ((takenFrame s g).withCommit p).ownEntryReport p (takenFrame s g).tbu (boundedTable (takenFrame s g) p).tbu
      = ((takenFrame s g).withCommit p).absentExit p.rotation :=
    State.ownEntryReport_of_absent (t := (takenFrame s g).withCommit p) state was gone
  obtain ⟨notes, inflight, outgoing⟩ := discarded_requests (v := takenFrame s g) (p := p) gone
  have rqu : requestsGone ((takenFrame s g).withCommit p).rqu = requestsGone s.rqu :=
    requestsGone_resultsTaken (takenFrame s g) p
  have ntq : (((takenFrame s g).withCommit p).absentExit p.rotation).ntq = (recordsFor s (application s p).out
      ++ (s.rqu.inflight.take discarded).map (requestNote .aborted p.rotation)
      ++ (s.rqu.inflight.drop discarded ++ s.rqu.outgoing).map (requestNote .aborted (adoptedTrk s g).rotation)
      ++ [stateNote .listening .absent none p.rotation]).foldl Ntq.offer s.ntq := by
    rw [State.absentExit_ntq, offers_concat]
    show List.foldl Ntq.offer (List.foldl Ntq.offer s.ntq (recordsFor s (application s p).out
      ++ discardNotes (takenFrame s g) p)) (((resultsTaken (takenFrame s g) p).inflight
        ++ (resultsTaken (takenFrame s g) p).outgoing).map (requestNote .aborted (adoptedTrk s g).rotation) ++ _) = _
    rw [notes, inflight, outgoing, ← List.foldl_append, ← List.append_assoc]
    rfl
  have departs : (((takenFrame s g).withCommit p).absentExit p.rotation).clearStream = departed s g .listening
      (requestsGone s.rqu) ((recordsFor s (application s p).out
      ++ (s.rqu.inflight.take discarded).map (requestNote .aborted p.rotation)
      ++ (s.rqu.inflight.drop discarded ++ s.rqu.outgoing).map (requestNote .aborted (adoptedTrk s g).rotation)
      ++ [stateNote .listening .absent none p.rotation]).foldl Ntq.offer s.ntq) :=
    State.ext_blocks rfl (adoptedTrk_enterListening s g) rfl rfl ((State.absentExit_rqu _ p.rotation).trans rqu) ntq
      ((donorAfter_release s p _).trans (adoptedXfu_release g idle)) rfl rfl rfl rfl rfl
  exact exec_delivery_departs hd state idle
    ((State.resolve_of_confirms_left (v := takenFrame s g) confirms report (State.isReplica_of_listening rfl)).trans departs)

end Sys2Proof.Machine
end

section
/-! PROOFS. Faults, FOUND frames and the loopback of the own FOUND (R69, R82, R83, R89, R91, R100, R107). -/

namespace Sys2Proof.Machine

/-! ### What CMU and XFU make of a fault, and of another station's FOUND -/

/-- A hole at a replica (R69, R78). -/
theorem Cmu.hole_eq (c : Cmu) (own : Option OwnItem) : c.hole own = holedCmu c own := by
  unfold Cmu.hole holedCmu markHole
  cases c.ownMark <;> cases own <;> rfl

section
variable {s : State} {h : Heard} {own : Bool} {sent : Option OwnItem} {r : Word32}

theorem State.replicaItem_of_fault (fault : h.isFault = true) :
    s.replicaItem h own sent r = s.setCmu (holedCmu s.cmu sent) := by
  rw [← Cmu.hole_eq]
  cases h <;> first | rfl | cases fault

theorem State.cmuItem_of_fault_resolving (fault : h.isFault = true)
    (state : s.stc.station = .member ∨ s.stc.station = .leaving) :
    s.cmuItem h own sent r = s.setCmu (holedCmu s.cmu sent) := by
  rcases state with e | e <;> rw [State.cmuItem, e] <;> exact State.replicaItem_of_fault fault

/-- Where CMU does not resolve, a fault leaves it as it was (R67). -/
theorem State.listenItem_of_fault (fault : h.isFault = true) (b : Bool) : s.listenItem h b = s := by
  cases h <;> first | rfl | cases fault

theorem State.xfuItem_of_fault_idle (fault : h.isFault = true) (idle : s.xfu.phase = .idle) : s.xfuItem h own sent = s := by
  simp only [State.xfuItem, idle]
  cases h <;> first | rfl | cases fault

end

/-- Where FOUND frames are not adopted, another station's is not heard (R67). -/
theorem State.listenItem_of_found {s : State} {f : StreamFrame} (found : f.kind = .found) :
    s.listenItem (.stream f) false = s := by
  simp [State.listenItem, found]

/-- No request is read from a FOUND (R134). -/
theorem Xfu.readRequest_of_found {x : Xfu} {f : StreamFrame} (found : f.kind = .found) : x.readRequest f = x := by
  unfold Xfu.readRequest; cases x.image <;> simp [found]

theorem State.xfuItem_of_found_idle {s : State} {f : StreamFrame} (found : f.kind = .found) (idle : s.xfu.phase = .idle)
    (own : Bool) (sent : Option OwnItem) : s.xfuItem (.stream f) own sent = s := by
  rw [State.xfuItem, idle]
  exact congrArg s.setXfu (Xfu.readRequest_of_found found)

/-- A FOUND heard by a replica is reported once after an ENABLE (R82, R107). -/
theorem State.ignoreFound_eq (s : State) (f : StreamFrame) (r : Word32) :
    s.ignoreFound f r = (s.setCmu { s.cmu with foundReported := true }).setNtq
      (if s.cmu.foundReported then s.ntq else s.ntq.offer (stationNote .foreign r (.foreign (.found f.sender)))) := by
  rw [State.ignoreFound]
  split
  · next reported => conv => lhs; rw [show s = s.setCmu { s.cmu with foundReported := true } by rw [← reported]; rfl]
                     rfl
  · rfl

/-! ### What TRK makes of a fault (R88, R91) -/

section
variable {s : State} {h : Heard}

theorem State.faultEndsTurn_of_replica (state : s.stc.station = .member ∨ s.stc.station = .leaving) : s.faultEndsTurn := by
  rcases state with e | e <;> simp [State.faultEndsTurn, e]

/-- The turn passes from its holder. -/
theorem faulted_of_passing {k : Nat} (idle : s.xfu.phase = .idle) (phase : s.trk.phase ≠ .waiting)
    (holder : s.trk.holder = some k) : faulted s h = { s with
      lif := reportedLif s.lif h
      trk := passedTrk s { s.trk with reference := s.lif.item.endAt, skipTimer := some 16 } k
      ntq := (foreignRecords s h).foldl Ntq.offer s.ntq
      xfu := { s.xfu with plan := none } } := by
  simp [faulted, faultTrk, faultXfu, faultPasses, phase, holder, idle]

/-- The own turn waits to start, and stays. -/
theorem faulted_of_waiting (phase : s.trk.phase = .waiting) : faulted s h = { s with
      lif := reportedLif s.lif h
      trk := { s.trk with reference := s.lif.item.endAt, skipTimer := some 16 }
      ntq := (foreignRecords s h).foldl Ntq.offer s.ntq } := by
  simp [faulted, faultTrk, faultXfu, faultPasses, phase]

end

/-- TRK adopts a FOUND where R101 has it, as any stream frame. -/
theorem State.trackItem_adopts {s : State} {g : StreamFrame} {own : Bool} (adopts : s.adoptsFound own = true) :
    s.trackItem (.stream g) own = (s.setTrk (adoptedTrk s g)).setXfu (adoptedXfu s g) := by
  have pass := s.adopt_pass g.sender g.rotation 0 g.moreFollows (!g.moreFollows)
  have adopted : (s.setTrk (s.trk.itemEnded s.lif.item.endAt)).adoptsFound own = true := adopts
  rw [State.trackItem, adoptedTrk]
  cases more : g.moreFollows <;> simp_all [State.trackStream, adoptedXfu]

/-! ### Delivery -/

/-- An item that is due, another station's (R105). -/
theorem execItemDelivery_of_other {s : State} {h : Heard} (hd : Delivers s h) : execItemDelivery s
    = .next ((((((s.lifReport h).trackItem h false).itemTaken).cmuItem h false none s.trk.rotation).xfuItem h false
      none).leaveLoopback h none) := by
  obtain ⟨released, trailing, other, heard⟩ := hd
  simp only [execItemDelivery, State.unlessHeld_released _ released, trailing, if_true, State.deliver, heard, other,
    State.ownSent]
  rfl

/-- An item that is due, of a frame that the station sent (R105, R110). -/
theorem execItemDelivery_of_own {s : State} {f : Frame} {h : Heard} (hd : DeliversOwn s f h) : execItemDelivery s
    = .next ((((((s.lifReport h).trackItem h true).itemTaken).cmuItem h true (some f.ownItem) s.trk.rotation).xfuItem h true
      (some f.ownItem)).leaveLoopback h (some f.ownItem)) := by
  obtain ⟨released, trailing, own, sent, heard⟩ := hd
  simp only [execItemDelivery, State.unlessHeld_released _ released, trailing, if_true, State.deliver, heard, own,
    State.ownSent, sent]
  rfl

section
variable {s : State} {sent : Option Frame} {h : Heard} (hd : DeliversFault s sent h)
include hd

/-- A fault at a resolving station is a hole. -/
theorem exec_delivery_hole (state : s.stc.station = .member ∨ s.stc.station = .leaving) (idle : s.xfu.phase = .idle) :
    exec .itemDelivery s = .next ({ faulted s h with cmu := holedCmu s.cmu (sent.map sentItem) }.leaveLoopback h
      (sent.map sentItem)) := by
  refine (execItemDelivery_faulted hd (State.faultEndsTurn_of_replica state)).trans ?_
  rw [State.cmuItem_of_fault_resolving (s := faulted s h) hd.1 state,
    State.xfuItem_of_fault_idle hd.1 ((faultXfu_phase s).trans idle)]
  rfl

/-- Where neither CMU nor XFU counts it, a fault only passes the turn (R67, R91). -/
theorem exec_delivery_only_passes (state : s.faultEndsTurn) (notLeaving : s.stc.station ≠ .leaving)
    (heard : (faulted s h).cmuItem h sent.isSome (sent.map sentItem) s.trk.rotation = faulted s h)
    (taken : (faulted s h).xfuItem h sent.isSome (sent.map sentItem) = faulted s h) :
    exec .itemDelivery s = .next (faulted s h) := by
  refine (execItemDelivery_faulted hd state).trans ?_
  rw [heard, taken, State.leaveLoopback_other (faulted s h) _ _ notLeaving]

end

/-- Another station's FOUND at a station that is not LISTENING and for which the tracker passes turns. -/
theorem exec_delivery_found {s : State} {f : StreamFrame} {t : State} (hd : Delivers s (.stream f)) (found : f.kind = .found)
    (state : s.faultEndsTurn) (notListening : s.stc.station ≠ .listening)
    (heard : (faulted s (.stream f)).cmuItem (.stream f) false none s.trk.rotation = t)
    (taken : t.xfuItem (.stream f) false none = t) : exec .itemDelivery s = .next t := by
  refine (execItemDelivery_found hd found state notListening).trans ?_
  rw [heard, taken]

/-! ### Another station's fault, FOUND or frame (R69, R82, R89, R91, R107) -/

/-- The sent item of another station's fault takes no mark (R78). -/
theorem holedCmu_none (c : Cmu) : holedCmu c none = { c with holes := min (c.holes + 1) 65535 } := by
  unfold holedCmu; cases c.ownMark <;> rfl

/-- Only an own item moves the leave phase (R150). -/
theorem State.leaveLoopback_none (s : State) (h : Heard) : s.leaveLoopback h none = s := by
  simp [State.leaveLoopback]

theorem State.faultEndsTurn_of {s : State} (h : s.stc.station = .joining ∨ s.stc.station = .loading ∨ s.stc.station = .detached
    ∨ (s.stc.station = .listening ∧ s.trk.aligned = true)) : s.faultEndsTurn := by
  rcases h with e | e | e | ⟨e, aligned⟩ <;> simp [State.faultEndsTurn, *]

/-- In LISTENING with the aligned flag clear a fault starts the listen window anew (R99, R101). -/
theorem State.trackItem_of_fault_unaligned {s : State} {h : Heard} (fault : h.isFault = true)
    (state : s.stc.station = .listening) (unaligned : s.trk.aligned = false) (own : Bool) :
    s.trackItem h own = s.setTrk { s.trk with
      reference := s.lif.item.endAt, skipTimer := some 16, holder := none, phase := .idle, window := some 16 } := by
  have restarts : (s.setTrk (s.trk.itemEnded s.lif.item.endAt)).trackFault
      = (s.setTrk (s.trk.itemEnded s.lif.item.endAt)).setTrk ((s.trk.itemEnded s.lif.item.endAt).startWindow 16) := by
    simp [State.trackFault, state, Trk.itemEnded, unaligned, Config.itemQuiet]
  cases h <;> first | exact restarts | cases fault

theorem exec_delivery_fault_unaligned {s : State} {h : Heard} (hd : Delivers s h) (fault : h.isFault = true)
    (idle : s.xfu.phase = .idle) (state : s.stc.station = .listening) (unaligned : s.trk.aligned = false) :
    exec .itemDelivery s = .next { s with
      lif := reportedLif s.lif h
      trk := { s.trk with
        reference := s.lif.item.endAt, skipTimer := some 16, holder := none, phase := .idle, window := some 16 }
      ntq := (foreignRecords s h).foldl Ntq.offer s.ntq } := by
  refine (execItemDelivery_of_other hd).trans (congrArg Host.Outcome.next ?_)
  have report := State.lifReport_eq s h
  rw [State.leaveLoopback_none, State.trackItem_of_fault_unaligned (s := s.lifReport h) fault
    (by rw [report]; exact state) (by rw [report]; exact unaligned), report]
  have heard : ∀ t : State, t.stc.station = .listening → t.xfu.phase = .idle →
      (t.cmuItem h false none s.trk.rotation).xfuItem h false none = t := by
    intro t listening idle
    rw [State.cmuItem, listening]
    simp only [State.listenItem_of_fault fault]
    exact State.xfuItem_of_fault_idle fault idle
  rw [heard]
  · rfl
  · exact state
  · exact idle

/-- Another station's FOUND at a replica is no hole (R82, R107). -/
theorem State.replicaItem_of_found {s : State} {f : StreamFrame} (found : f.kind = .found) (own : Bool)
    (sent : Option OwnItem) (r : Word32) : s.replicaItem (.stream f) own sent r = s.ignoreFound f r := by
  simp [State.replicaItem, found]

theorem exec_delivery_found_resolving {s : State} {f : StreamFrame} (hd : Delivers s (.stream f)) (found : f.kind = .found)
    (state : s.stc.station = .member ∨ s.stc.station = .leaving) (idle : s.xfu.phase = .idle) :
    exec .itemDelivery s = .next { faulted s (.stream f) with
      cmu := { s.cmu with foundReported := true }
      ntq := if s.cmu.foundReported then s.ntq
        else s.ntq.offer (stationNote .foreign s.trk.rotation (.foreign (.found f.sender))) } := by
  refine exec_delivery_found hd found (State.faultEndsTurn_of_replica state) (by rcases state with e | e <;> simp [e])
    (t := (faulted s (.stream f)).ignoreFound f s.trk.rotation) ?_ ?_ |>.trans ?_
  · rcases state with e | e <;> simp only [State.cmuItem, faulted_stc, e, State.replicaItem_of_found found]
  · refine State.xfuItem_of_found_idle found ?_ _ _
    rw [State.ignoreFound_eq]
    exact (faultXfu_phase s).trans idle
  · rw [State.ignoreFound_eq]; rfl

/-- A fault where neither unit counts it. -/
theorem exec_delivery_uncounted {s : State} {sent : Option Frame} {h : Heard} (hd : DeliversFault s sent h)
    (state : ((s.stc.station = .listening ∧ s.trk.aligned = true ∨ s.stc.station = .detached) ∧ s.xfu.phase = .idle)
      ∨ (s.stc.station = .joining ∧ s.xfu.phase = .awaiting
        ∧ (s.xfu.joinMark = none ∨ (sent = none ∧ ∃ id, s.xfu.joinMark = some ⟨id, none⟩)))) :
    exec .itemDelivery s = .next (faulted s h) := by
  have silent : ∀ own item r, (s.stc.station = .listening ∨ s.stc.station = .detached ∨ s.stc.station = .joining) →
      (faulted s h).cmuItem h own item r = faulted s h := by
    rintro own item r (e | e | e) <;> simp only [State.cmuItem, faulted_stc, e, State.listenItem_of_fault hd.1]
  rcases state with ⟨state, idle⟩ | ⟨state, phase, mark⟩
  · have taken := State.xfuItem_of_fault_idle (s := faulted s h) (own := sent.isSome) (sent := sent.map sentItem) hd.1
      ((faultXfu_phase s).trans idle)
    rcases state with ⟨e, aligned⟩ | e
    · exact exec_delivery_only_passes hd (State.faultEndsTurn_of (by simp [e, aligned])) (by simp [e])
        (silent _ _ _ (by simp [e])) taken
    · exact exec_delivery_only_passes hd (State.faultEndsTurn_of (by simp [e])) (by simp [e])
        (silent _ _ _ (by simp [e])) taken
  · refine exec_delivery_only_passes hd (State.faultEndsTurn_of (by simp [state])) (by simp [state])
      (silent _ _ _ (by simp [state])) ?_
    have waits : (faulted s h).xfu.phase = .awaiting := (faultXfu_phase s).trans phase
    have marked : (faulted s h).xfu.joinMark = s.xfu.joinMark := faultXfu_joinMark s
    simp only [State.xfuItem, waits, State.awaitItem, marked]
    rcases mark with e | ⟨rfl, id, e⟩ <;> simp [e]

/-- Another station's FOUND adopted in LISTENING (R101). -/
theorem exec_delivery_found_adopted {s : State} {f : StreamFrame} (hd : Delivers s (.stream f)) (found : f.kind = .found)
    (state : s.stc.station = .listening) (idle : s.xfu.phase = .idle) : exec .itemDelivery s = .next (takenFrame s f) := by
  refine (execItemDelivery_of_other hd).trans (congrArg Host.Outcome.next ?_)
  rw [State.leaveLoopback_none, State.lifReport, State.trackItem_adopts (by simp [State.adoptsFound, state])]
  have heard : (((s.setTrk (adoptedTrk s f)).setXfu (adoptedXfu s f)).itemTaken).cmuItem (.stream f) false none
      s.trk.rotation = takenFrame s f := by
    rw [State.cmuItem, show (((s.setTrk (adoptedTrk s f)).setXfu (adoptedXfu s f)).itemTaken).stc.station = .listening
      from state]
    simp only [State.listenItem, Bool.not_true, Bool.and_false, Bool.false_eq_true, if_false]
    rfl
  rw [heard]
  exact State.xfuItem_of_found_idle (s := takenFrame s f) found idle _ _

/-- Another station's FOUND where no FOUND is adopted and no stream resolved. -/
theorem exec_delivery_found_unheard {s : State} {f : StreamFrame} (hd : Delivers s (.stream f)) (found : f.kind = .found)
    (state : s.stc.station = .detached ∧ s.xfu.phase = .idle ∨ s.stc.station = .joining ∧ s.xfu.phase = .awaiting
      ∨ s.stc.station = .loading ∧ s.xfu.phase = .gathering) : exec .itemDelivery s = .next (faulted s (.stream f)) := by
  have phase : (faulted s (.stream f)).xfu.phase = s.xfu.phase := faultXfu_phase s
  rcases state with ⟨e, idle⟩ | ⟨e, waits⟩ | ⟨e, gathers⟩
  · refine exec_delivery_found hd found (State.faultEndsTurn_of (by simp [e])) (by simp [e]) ?_
      (State.xfuItem_of_found_idle found (phase.trans idle) _ _)
    simp only [State.cmuItem, faulted_stc, e, State.listenItem_of_found found]
  · refine exec_delivery_found hd found (State.faultEndsTurn_of (by simp [e])) (by simp [e]) ?_ ?_
    · simp only [State.cmuItem, faulted_stc, e, State.listenItem_of_found found]
    · simp only [State.xfuItem, phase, waits, State.awaitItem, found, if_true]
      split <;> simp
  · refine exec_delivery_found hd found (State.faultEndsTurn_of (by simp [e])) (by simp [e]) ?_ ?_
    · simp only [State.cmuItem, faulted_stc, e, phase, gathers, State.listenItem_of_found found]
    · simp only [State.xfuItem, phase, gathers, State.catchItem, found, if_true]

/-- A FOUND heard in replay is ignored as at any replica (R82). -/
theorem exec_delivery_found_replaying {s : State} {f : StreamFrame} (hd : Delivers s (.stream f)) (found : f.kind = .found)
    (state : s.stc.station = .loading) (phase : s.xfu.phase = .replaying ∨ s.xfu.phase = .confirming) :
    exec .itemDelivery s = .next { faulted s (.stream f) with
      cmu := { s.cmu with foundReported := true }
      ntq := if s.cmu.foundReported then s.ntq
        else s.ntq.offer (stationNote .foreign s.trk.rotation (.foreign (.found f.sender))) } := by
  have same : (faulted s (.stream f)).xfu.phase = s.xfu.phase := faultXfu_phase s
  have ignored : ((faulted s (.stream f)).ignoreFound f s.trk.rotation).xfu.phase = s.xfu.phase := by
    rw [State.ignoreFound_eq]; exact same
  refine exec_delivery_found hd found (State.faultEndsTurn_of (by simp [state])) (by simp [state])
    (t := (faulted s (.stream f)).ignoreFound f s.trk.rotation) ?_ ?_ |>.trans ?_
  · rcases phase with e | e <;>
      simp [State.cmuItem, state, same, e, State.replayingItem, State.replicaItem, found]
  · rcases phase with e | e <;> simp [State.xfuItem, ignored, e, State.catchItem, found]
  · rw [State.ignoreFound_eq]; rfl

/-- A stream frame heard where none is resolved (R67, R68). -/
theorem exec_delivery_heard {s : State} {g : StreamFrame} (hd : DeliversStream s g)
    (state : s.stc.station = .listening ∨ s.stc.station = .detached) (idle : s.xfu.phase = .idle) :
    exec .itemDelivery s = .next { takenFrame s g with xfu := servedXfu (adoptedXfu s g) g } := by
  refine (execItemDelivery_stream hd).trans (congrArg Host.Outcome.next ?_)
  have heard : (s.adopted g).cmuItem (.stream g) (decide (g.sender = s.number)) s.ownSent s.trk.rotation
      = (s.adopted g).hear g := by
    rcases state with e | e <;> simp [State.cmuItem, e, State.listenItem, hd.1]
  have phase : ((s.adopted g).hear g).xfu.phase = .idle := idle
  rw [heard, State.xfuItem, phase, Xfu.readRequest_eq]
  rfl

/-- Adopting a frame sets the aligned flag (R89). -/
theorem adoptedTrk_aligned (s : State) (g : StreamFrame) : (adoptedTrk s g).aligned = true := by
  unfold adoptedTrk adoptedFrom
  cases g.moreFollows <;> rfl

/-- Settles O33. -/
theorem faultIsAHoleAndPassesTheTurn : Obligations.FaultIsAHoleAndPassesTheTurn := by
  refine ⟨fun s h hd idle => ⟨fun fault state => ⟨fun k phase holder => ?_, fun phase => ?_⟩,
      fun fault state unaligned => exec_delivery_fault_unaligned hd fault idle state unaligned,
      fun f heard found state => ⟨fun k phase holder => ?_, fun phase => ?_⟩⟩,
    fun s sent h hd state => ?_,
    fun s f hd found => ⟨fun state idle other => ?_, fun state => ?_, fun state => ?_⟩,
    fun s g hd state idle => ?_⟩
  · rw [exec_delivery_hole (sent := none) ⟨fault, hd⟩ state idle, Option.map_none, State.leaveLoopback_none, holedCmu_none,
      faulted_of_passing idle phase holder]
  · rw [exec_delivery_hole (sent := none) ⟨fault, hd⟩ state idle, Option.map_none, State.leaveLoopback_none, holedCmu_none,
      faulted_of_waiting phase]
  · subst heard
    rw [exec_delivery_found_resolving hd found state idle, faulted_of_passing idle phase holder]
    rfl
  · subst heard
    rw [exec_delivery_found_resolving hd found state idle, faulted_of_waiting phase]
    rfl
  · exact exec_delivery_uncounted hd state
  · exact exec_delivery_found_adopted hd found state idle
  · exact exec_delivery_found_unheard hd found state
  · exact exec_delivery_found_replaying hd found state.1 state.2
  · exact ⟨_, exec_delivery_heard hd state idle, rfl, adoptedTrk_aligned s g⟩

/-! ### The own frame heard as a fault (R69, R78, R150) -/

/-- Settles O34: the hole of an own item, whose first takes the mark. -/
theorem ownFaultTakesTheOwnMark : Obligations.OwnFaultTakesTheOwnMark := by
  have general : ∀ (s : State) (f : Frame) (h : Heard), DeliversFault s (some f) h →
      s.stc.station = .member ∨ s.stc.station = .leaving → s.xfu.phase = .idle →
      exec .itemDelivery s = .next { faulted s h with
        cmu := holedCmu s.cmu (some (sentItem f))
        stc := { s.stc with
          leave := if s.stc.station = .leaving ∧ (sentItem f).kind = .stream .leave then .draining
            else s.stc.leave } } := by
    intro s f h hd state idle
    rw [exec_delivery_hole hd state idle, Option.map_some]
    by_cases leave : s.stc.station = .leaving ∧ (sentItem f).kind = .stream .leave
    · simp [State.leaveLoopback, hd.1, leave]; rfl
    · rw [State.leaveLoopback, if_neg, if_neg leave]
      · rfl
      · simp only [Bool.and_eq_true, decide_eq_true_eq]
        exact fun ⟨⟨_, leaving⟩, kind⟩ => leave ⟨leaving, Option.some.inj kind⟩
  refine ⟨fun s f h hd state idle phase holder => ?_, general⟩
  refine ⟨_, general s (.stream f) .fault ⟨rfl, hd⟩ (.inl state) idle, ?_, fun marked => ?_, fun unmarked member bare => ?_,
    fun unmarked loaded => ?_⟩
  · rw [faulted_of_passing idle (by simp [phase]) holder, if_neg (by simp [state])]
    rfl
  · obtain ⟨m, e⟩ := Option.ne_none_iff_exists'.mp marked
    simp [holedCmu, e]
  · simp [holedCmu, unmarked, sentItem, member, bare]
  · refine ⟨⟨⟨f.rotation, f.sender⟩, .stream f.kind, true⟩, ?_, rfl, rfl⟩
    have notBare : ¬ (f.kind = .member ∧ f.ops = []) := by tauto
    simp [holedCmu, unmarked, sentItem, notBare]

/-! ### The loopback of the own FOUND (R83, R100, R145) -/

section
variable {s : State} (state : s.stc.station = .founding) (idle : s.xfu.phase = .idle)
include state idle

/-- The own FOUND is adopted, and founds the group. -/
theorem exec_delivery_founded {f g : StreamFrame} (hd : DeliversOwn s (.stream f) (.stream g)) (found : g.kind = .found) :
    exec .itemDelivery s = .next ((s.adopted g).founded g) := by
  refine (execItemDelivery_of_own hd).trans (congrArg Host.Outcome.next ?_)
  rw [State.lifReport, State.trackItem_adopts (by simp [State.adoptsFound, state])]
  have heard : ∀ r, (s.adopted g).cmuItem (.stream g) true (some (Frame.stream f).ownItem) r = (s.adopted g).founded g := by
    intro r
    simp [State.cmuItem, state, State.foundLoopback, found]
  have taken : ((s.adopted g).founded g).xfuItem (.stream g) true (some (Frame.stream f).ownItem) = (s.adopted g).founded g :=
    State.xfuItem_of_found_idle (s := (s.adopted g).founded g) found idle _ _
  refine Eq.trans (congrArg (fun t : State => (t.xfuItem _ _ _).leaveLoopback _ _) (heard _)) ?_
  rw [taken]
  exact State.leaveLoopback_other _ _ _ (by simp [State.founded])

/-- The own FOUND failed, and its window restarts. -/
theorem exec_delivery_collided {f : StreamFrame} (hd : DeliversOwn s (.stream f) .fault) : exec .itemDelivery s
    = .next ((s.setTrk ((s.trk.itemEnded s.lif.item.endAt).startWindow 16)).setLif (deliveredLif s.lif)).collided := by
  refine (execItemDelivery_of_own hd).trans (congrArg Host.Outcome.next ?_)
  have tracked : s.trackItem .fault true = s.setTrk ((s.trk.itemEnded s.lif.item.endAt).startWindow 16) := by
    simp [State.trackItem, State.trackFault, state, Config.itemQuiet]
  rw [State.lifReport, tracked]
  generalize ht : (s.setTrk ((s.trk.itemEnded s.lif.item.endAt).startWindow 16)).itemTaken = t
  have founding : t.stc.station = .founding := by rw [← ht]; exact state
  have still : t.collided.xfu.phase = .idle := by rw [← ht]; exact idle
  rw [show t.cmuItem .fault true (some (Frame.stream f).ownItem) s.trk.rotation = t.collided by
      simp [State.cmuItem, founding, State.foundLoopback],
    State.xfuItem_of_fault_idle rfl still, State.leaveLoopback_other _ _ _ (by simp [State.collided]), ← ht]
  rfl

end

/-- Settles O40: the own FOUND valid, with the tracker's rotation after the turn has passed, or failed. -/
theorem foundLoopbackDecidesTheAttempt : Obligations.FoundLoopbackDecidesTheAttempt := by
  refine fun s f g state idle => ⟨fun hd found own last => ?_, fun hd => ?_⟩
  · refine ⟨_, exec_delivery_founded state idle hd found, State.ext_blocks rfl ?_ rfl rfl rfl rfl ?_ rfl rfl rfl rfl rfl⟩
    · show adoptedTrk s g = _
      simp [adoptedTrk, adoptedFrom, passedTrk, own, last]
    · show adoptedXfu s g = _
      simp [adoptedXfu, last, stallAfter, idle]
  · exact ⟨_, exec_delivery_collided state idle hd, rfl, rfl, rfl, rfl, rfl, rfl, rfl, rfl, rfl, rfl, rfl, rfl, rfl⟩

end Sys2Proof.Machine
end

section
/-! PROOFS. Encoded frames read back, and which bytes are no frame (R106, R109, R112 to R117). -/

namespace Sys2Proof.Machine

/-! ### Fields written and read -/

/-- A suffix stands in a string where its front ends. -/
theorem agreeAt_append (front l : List Byte) (i n : Nat) : AgreeAt l (front ++ l) i (front.length + i) n := by
  intro k _
  rw [getD_eq_byteAt, getD_eq_byteAt, Nat.add_assoc, byteAt_append]

theorem bytes32_injective {a b : Word32} (h : bytes32 a = bytes32 b) : a = b := by
  rw [← word32At_head a [], h, word32At_head]

/-- A field of a run of encodings of one length `w` stands at its multiple of `w`. -/
theorem run_at {α : Type} {enc : α → List Byte} {At : List Byte → Nat → α → Prop} {w : Nat}
    (len : ∀ x, (enc x).length = w) (shift : ∀ front l i x, At l i x → At (front ++ l) (front.length + i) x)
    (rest : List Byte) : ∀ xs : List α, (∀ x ∈ xs, ∀ tail, At (enc x ++ tail) 0 x) →
      ∀ k x, xs[k]? = some x → At (xs.flatMap enc ++ rest) (w * k) x
  | [], _ => by simp
  | y :: ys, head => by
    rw [forall_getElem?_cons]
    refine ⟨by rw [List.flatMap_cons, List.append_assoc]; exact head y (by simp) _, fun k x hk => ?_⟩
    have ih := run_at len shift rest ys (fun z hz => head z (by simp [hz])) k x hk
    have := shift (enc y) _ _ _ ih
    rwa [len, ← List.append_assoc, ← List.flatMap_cons, show w + w * k = w * (k + 1) by ring] at this

/-! ### Operation entries (R113) -/

theorem EntryAt.shift (front l : List Byte) (i : Nat) (q : Request) (h : EntryAt l i q) :
    EntryAt (front ++ l) (front.length + i) q :=
  (EntryAt.congr (agreeAt_append front l i 8) q).mp h

/-- The first byte of an operation entry: no spare bit, the op kind, and the mode where there is one. -/
theorem entry_code (k : OpKind) (m : Option Mode) :
    ((k.code ||| (modeCode m <<< 4)).getLsbD 3 = false ∧ (k.code ||| (modeCode m <<< 4)).getLsbD 6 = false
        ∧ (k.code ||| (modeCode m <<< 4)).getLsbD 7 = false)
      ∧ (k.code ||| (modeCode m <<< 4)).toNat % 8 = (match k with
          | .acquire => 1 | .release => 2 | .renew => 3 | .withdraw => 4 | .downgrade => 5)
      ∧ (∀ x, m = some x → (k.code ||| (modeCode m <<< 4)).toNat / 16 % 4 = (match x with | .shared => 1 | .exclusive => 2)) := by
  cases k <;> rcases m with - | - | - <;> decide

theorem entryAt_entryBytes (q : Request) (rest : List Byte) : EntryAt (entryBytes q ++ rest) 0 q := by
  obtain ⟨spare, kind, mode⟩ := entry_code q.kind q.mode
  exact ⟨spare, kind, mode, rfl, standsAt_bytes16.mpr (word16_of_bytes _), fun _ => standsAt_bytes16.mpr (word16_of_bytes _),
    fun _ => standsAt_bytes16.mpr (word16_of_bytes _)⟩

/-! ### Snapshot items (R115, R116) -/

theorem RosterEntryAt.shift (front l : List Byte) (i : Nat) (e : RosterEntry) (h : RosterEntryAt l i e) :
    RosterEntryAt (front ++ l) (front.length + i) e :=
  (RosterEntryAt.congr (agreeAt_append front l i 10) e).mp h

theorem rosterEntryAt_bytes {n : Nat} (small : n ≤ 16) (e : RosterEntry) (wf : e.wf n = true) (rest : List Byte) :
    RosterEntryAt (rosterEntryBytes e ++ rest) 0 e := by
  cases e with
  | vacant => rfl
  | joining start donor =>
    have inGroup : donor < n := by simpa [RosterEntry.wf] using wf
    exact ⟨rfl, standsAt_bytes32.mpr (word32_of_bytes _), byteOf_toNat (show donor < 256 by omega)⟩
  | member seen => exact ⟨rfl, standsAt_bytes32.mpr (word32_of_bytes _)⟩

theorem ClaimAt.shift (st : ClaimState) (front l : List Byte) (i : Nat) (c : Claim) (h : ClaimAt l i st c) :
    ClaimAt (front ++ l) (front.length + i) st c :=
  (ClaimAt.congr (agreeAt_append front l i 9) st c).mp h

/-- The status byte of a claim holds its state, its mode and whether it has an expiry. -/
theorem claimStatus_fields (st : ClaimState) (c : Claim) :
    (claimStatus st c).toNat % 4 = (match st with | .holding => 1 | .waiting => 2)
      ∧ (claimStatus st c).toNat / 4 % 4 = (match c.mode with | .shared => 1 | .exclusive => 2)
      ∧ (claimStatus st c).getLsbD 4 = c.expiry.isNone := by
  have fields : ∀ (st : ClaimState) (m : Mode) (b : Bool),
      let status : Byte := (match st with | .holding => 1#8 | .waiting => 2#8) ||| (modeCode (some m) <<< 2)
        ||| (if b then 16#8 else 0#8)
      status.toNat % 4 = (match st with | .holding => 1 | .waiting => 2)
        ∧ status.toNat / 4 % 4 = (match m with | .shared => 1 | .exclusive => 2) ∧ status.getLsbD 4 = b := by
    intro st m b
    cases st <;> cases m <;> cases b <;> decide
  exact fields st c.mode c.expiry.isNone

theorem claimAt_claimBytes {n : Nat} (small : n ≤ 16) (st : ClaimState) (c : Claim) (wf : c.wf n = true) (rest : List Byte) :
    ClaimAt (claimBytes st c ++ rest) 0 st c := by
  have inGroup : c.station < n := by simp only [Claim.wf, Bool.and_eq_true, decide_eq_true_eq] at wf; exact wf.1
  obtain ⟨state, mode, expiry⟩ := claimStatus_fields st c
  refine ⟨byteOf_toNat (show c.station < 256 by omega), state, mode, expiry, rfl,
    standsAt_bytes16.mpr (word16_of_bytes _), fun e he => ?_⟩
  rw [claimBytes, he]
  exact standsAt_bytes32.mpr (word32_of_bytes _)

theorem itemBytes_length (it : SnapItem) : (itemBytes it).length = itemLength it := by
  cases it <;> simp [itemBytes, itemLength] <;> ring

theorem flatMap_claims_length (st : ClaimState) (cs : List Claim) : (cs.flatMap (claimBytes st)).length = 9 * cs.length := by
  simp [mul_comm]

theorem itemAt_itemBytes {n i : Nat} (small : n ≤ 16) (it : SnapItem) (wf : it.wf n i = true) (rest : List Byte) :
    ItemAt (itemBytes it ++ rest) 0 it := by
  cases it with
  | roster r =>
    simp only [SnapItem.wf, Bool.and_eq_true, decide_eq_true_eq, List.all_eq_true] at wf
    obtain ⟨⟨⟨-, entries⟩, sender⟩, inRange⟩ := wf
    refine ⟨byteOf_toNat (show r.entries.length < 256 by omega), standsAt_bytes32.mpr (word32_of_bytes _),
      standsAt_bytes32.mpr (word32_of_bytes _), standsAt_bytes32.mpr (word32_of_bytes _),
      byteOf_toNat (show r.last.id.sender < 256 by omega), standsAt_bytes32.mpr (word32_of_bytes _), fun k e hk => ?_⟩
    have run := run_at (w := 10) rosterEntryBytes_length RosterEntryAt.shift rest r.entries
      (fun e he tail => rosterEntryAt_bytes small e (inRange e he) tail) k e hk
    rw [itemBytes, List.append_assoc]
    exact RosterEntryAt.shift ([byteOf r.entries.length] ++ bytes32 r.lastApplied
      ++ bytes32 r.streamCheck ++ bytes32 r.last.id.rotation ++ [byteOf r.last.id.sender] ++ bytes32 r.last.check) _ _ e run
  | record r =>
    simp only [SnapItem.wf, ResRecord.wf, Bool.and_eq_true, decide_eq_true_eq, List.all_eq_true] at wf
    obtain ⟨-, ⟨⟨⟨⟨-, -⟩, count⟩, holders⟩, waiters⟩, -⟩ := wf
    have hold := fun tail => run_at (w := 9) (claimBytes_length .holding) (ClaimAt.shift .holding) tail r.holders
      (fun c hc tail => claimAt_claimBytes small .holding c (holders c hc) tail)
    have wait := run_at (w := 9) (claimBytes_length .waiting) (ClaimAt.shift .waiting) rest r.waiters
      (fun c hc tail => claimAt_claimBytes small .waiting c (waiters c hc) tail)
    refine ⟨standsAt_bytes16.mpr (word16_of_bytes _),
      byteOf_toNat (show r.holders.length + r.waiters.length < 256 by omega), fun k c hk => ?_, fun k c hk => ?_⟩
    · rw [itemBytes, List.append_assoc, List.append_assoc]
      exact ClaimAt.shift .holding
        (bytes16 r.resource ++ [byteOf (r.holders.length + r.waiters.length)]) _ _ c (hold _ k c hk)
    · have shifted := ClaimAt.shift .waiting (bytes16 r.resource ++ [byteOf (r.holders.length + r.waiters.length)]
        ++ r.holders.flatMap (claimBytes .holding)) _ _ c (wait k c hk)
      rw [List.length_append, flatMap_claims_length, Nat.add_assoc, ← Nat.mul_add] at shifted
      rw [itemBytes, List.append_assoc]
      exact shifted

theorem itemsAt_itemBytes {n : Nat} (small : n ≤ 16) (rest : List Byte) : ∀ (items : List SnapItem) (i : Nat),
    itemsWf n i items = true → ItemsAt (items.flatMap itemBytes ++ rest) 0 items
  | [], _, _ => trivial
  | it :: its, i, wf => by
    simp only [itemsWf, Bool.and_eq_true] at wf
    rw [List.flatMap_cons, List.append_assoc]
    refine ⟨itemAt_itemBytes small it wf.1 _, ?_⟩
    have tail := itemsAt_itemBytes small rest its (i + 1) wf.2
    rw [Nat.zero_add, ← itemBytes_length]
    exact (ItemsAt.congr its (agreeAt_append (itemBytes it) _ 0 _)).mp tail

/-! ### Frames (R112, R115) -/

theorem flatMap_entries_length (qs : List Request) : (qs.flatMap entryBytes).length = 8 * qs.length := by
  simp [mul_comm]

theorem flatMap_items_length (items : List SnapItem) : (items.flatMap itemBytes).length = (items.map itemLength).sum := by
  simp [List.length_flatMap, itemBytes_length]

/-- The ranges of a stream frame's fields (R112 to R114). -/
theorem StreamFrame.ranges {n : Nat} {f : StreamFrame} (wf : f.wf n = true) : f.sender < n
    ∧ (∀ e, f.echo = some e → e.id.sender < n) ∧ f.wanted ≤ 65 ∧ f.ops.length ≤ 8 := by
  simp only [StreamFrame.wf, Bool.and_eq_true, decide_eq_true_eq] at wf
  obtain ⟨⟨⟨⟨⟨⟨-, sender⟩, -⟩, echo⟩, wanted⟩, ops⟩, -⟩ := wf
  refine ⟨sender, fun e he => by simpa [he] using echo, ?_, ?_⟩
  · split at wanted <;> simp [Config.snapshotItems] at wanted <;> omega
  · split at ops <;> simp [Config.maxOps] at ops
    · exact ops
    · simp [ops]

/-- The header of a stream frame, before its operation entries. -/
def streamHeader (profile : Byte) (f : StreamFrame) : List Byte :=
  syncBytes ++ ([profile, f.kind.code, flagsByte f.moreFollows f.echo.isSome f.streamCheck.isSome, byteOf f.sender]
    ++ bytes32 f.rotation ++ echoBytes f.echo ++ bytes32 (f.streamCheck.getD 0) ++ [byteOf f.wanted, byteOf f.ops.length])

theorem encodeFrame_stream (profile : Byte) (f : StreamFrame) : encodeFrame profile (.stream f)
    = streamHeader profile f ++ (f.ops.flatMap entryBytes ++ bytes32 (frameCheck profile (.stream f))) := by
  simp only [encodeFrame, frameBody, streamBody, streamHeader, List.append_assoc]

theorem streamHeader_length (profile : Byte) (f : StreamFrame) : (streamHeader profile f).length = 25 := by
  simp [streamHeader, syncBytes]

/-- A 32-bit field at the end of a string. -/
theorem standsAt_end (front : List Byte) (w : Word32) :
    StandsAt (front ++ bytes32 w) ((front ++ bytes32 w).length - 4) (bytes32 w) := by
  rw [standsAt_bytes32, List.length_append, bytes32_length, Nat.add_sub_cancel]
  simpa using (word32At_append front (bytes32 w) 0).trans (by simpa using word32At_head w [])

theorem carriedBy_encodeFrame_stream {n : Nat} (small : n ≤ 16) (profile : Byte) (f : StreamFrame) (wf : f.wf n = true) :
    CarriedBy (encodeFrame profile (.stream f)) (.stream (f.sealed profile)) := by
  obtain ⟨sender, echo, wanted, ops⟩ := StreamFrame.ranges wf
  have len : (encodeFrame profile (.stream f)).length = 25 + 8 * f.ops.length + 4 := by
    rw [encodeFrame_stream, List.length_append, streamHeader_length, List.length_append, flatMap_entries_length,
      bytes32_length, Nat.add_assoc]
  refine ⟨by cases h : f.kind <;> simp [encodeFrame, frameBody, streamBody, syncBytes, StreamKind.code, kindCode, StreamFrame.sealed, h], rfl,
    byteOf_toNat (show f.sender < 256 by omega), standsAt_bytes32.mpr (word32_of_bytes _),
    fun e he => ?_, fun v hv => ?_, fun _ => ?_, ?_, fun k q hk => ?_, len, ?_⟩
  · have named : f.echo = some e := he
    simp only [encodeFrame, frameBody, streamBody, named]
    exact ⟨standsAt_bytes32.mpr (word32_of_bytes _), byteOf_toNat (show e.id.sender < 256 by have := echo e named; omega),
      standsAt_bytes32.mpr (word32_of_bytes _)⟩
  · have checked : f.streamCheck = some v := hv
    simp only [encodeFrame, frameBody, streamBody, checked]
    cases f.echo <;> exact standsAt_bytes32.mpr (word32_of_bytes _)
  · simp only [encodeFrame, frameBody, streamBody]
    cases f.echo <;> exact byteOf_toNat (show f.wanted < 256 by omega)
  · simp only [encodeFrame, frameBody, streamBody]
    cases f.echo <;> exact byteOf_toNat (show f.ops.length < 256 by omega)
  · have run := run_at (w := 8) entryBytes_length EntryAt.shift (bytes32 (frameCheck profile (.stream f))) f.ops
      (fun q _ tail => entryAt_entryBytes q tail) k q hk
    have placed := EntryAt.shift (streamHeader profile f) _ _ q run
    rwa [← encodeFrame_stream, streamHeader_length] at placed
  · exact standsAt_end (syncBytes ++ frameBody profile (.stream f)) _

/-- The header of a transfer frame, before its snapshot items. -/
def transferHeader (profile : Byte) (t : TransferFrame) : List Byte :=
  syncBytes ++ ([profile, 7, flagsByte t.moreFollows false false, byteOf t.sender, byteOf t.joiner]
    ++ bytes32 t.snapRotation ++ bytes32 t.donorRotation ++ [byteOf t.first, byteOf t.items.length, byteOf t.total])

theorem encodeFrame_transfer (profile : Byte) (t : TransferFrame) : encodeFrame profile (.transfer t)
    = transferHeader profile t ++ (t.items.flatMap itemBytes ++ bytes32 (frameCheck profile (.transfer t))) := by
  simp only [encodeFrame, frameBody, transferBody, transferHeader, List.append_assoc]

theorem transferHeader_length (profile : Byte) (t : TransferFrame) : (transferHeader profile t).length = 18 := by
  simp [transferHeader, syncBytes]

/-- The ranges of a transfer frame's fields (R115). -/
theorem TransferFrame.wf_iff {n : Nat} {t : TransferFrame} : t.wf n = true ↔
    t.sender < n ∧ t.joiner < n ∧ t.joiner ≠ t.sender ∧ t.first < 65 ∧ 1 ≤ t.items.length ∧ t.items.length ≤ 4
      ∧ t.total ≤ 65 ∧ t.first + t.items.length ≤ t.total ∧ itemsWf n t.first t.items = true := by
  simp [TransferFrame.wf, Config.snapshotItems, Config.itemsPerTransfer, and_assoc]

theorem carriedBy_encodeFrame_transfer {n : Nat} (small : n ≤ 16) (profile : Byte) (t : TransferFrame)
    (wf : t.wf n = true) : CarriedBy (encodeFrame profile (.transfer t)) (.transfer (t.sealed profile)) := by
  obtain ⟨sender, joiner, -, first, -, count, total, -, items⟩ := TransferFrame.wf_iff.mp wf
  refine ⟨rfl, rfl, byteOf_toNat (show t.sender < 256 by omega), byteOf_toNat (show t.joiner < 256 by omega),
    standsAt_bytes32.mpr (word32_of_bytes _), standsAt_bytes32.mpr (word32_of_bytes _),
    byteOf_toNat (show t.first < 256 by omega), byteOf_toNat (show t.items.length < 256 by omega),
    byteOf_toNat (show t.total < 256 by omega), ?_, ?_, ?_⟩
  · rw [encodeFrame_transfer]
    have at0 := itemsAt_itemBytes small (bytes32 (frameCheck profile (.transfer t))) t.items t.first items
    have placed := (ItemsAt.congr t.items (agreeAt_append (transferHeader profile t) _ 0 _)).mp at0
    rwa [transferHeader_length] at placed
  · rw [encodeFrame_transfer, List.length_append, transferHeader_length, List.length_append, flatMap_items_length,
      bytes32_length, Nat.add_assoc]
    rfl
  · exact standsAt_end (syncBytes ++ frameBody profile (.transfer t)) _

theorem carriedBy_encodeFrame {n : Nat} (small : n ≤ 16) (profile : Byte) (f : Frame) (wf : f.wf n = true) :
    CarriedBy (encodeFrame profile f) (f.sealed profile) := by
  cases f with
  | stream f => exact carriedBy_encodeFrame_stream small profile f wf
  | transfer t => exact carriedBy_encodeFrame_transfer small profile t wf

/-- What a station sends passes checks 1 to 4 (R106, R109). -/
theorem encodeFrame_carriesCheck (profile : Byte) (f : Frame) (long : 29 ≤ (encodeFrame profile f).length) :
    CarriesCheck (encodeFrame profile f) ∧ (encodeFrame profile f).getD 2 0 = profile := by
  have len : (encodeFrame profile f).length = 2 + ((frameBody profile f).length + 4) := by
    simp [encodeFrame, syncBytes]; omega
  refine ⟨⟨long, rfl, ?_⟩, by cases f <;> rfl⟩
  have front : (syncBytes ++ frameBody profile f).length = (encodeFrame profile f).length - 4 := by
    rw [len]; simp [syncBytes]; omega
  have body : ((encodeFrame profile f).drop 2).take ((encodeFrame profile f).length - 6) = frameBody profile f := by
    rw [len, encodeFrame, List.append_assoc]
    show List.take _ (frameBody profile f ++ _) = _
    rw [show 2 + ((frameBody profile f).length + 4) - 6 = (frameBody profile f).length by omega, List.take_left]
  rw [body, ← front, encodeFrame, List.drop_left]
  rfl

/-! ### The checks of R106 -/

/-- Check 3 compares the frame check received with the one computed (R106). -/
theorem carriesCheck_iff {bytes : List Byte} : CarriesCheck bytes ↔ 29 ≤ bytes.length ∧ bytes.take 2 = syncBytes
    ∧ word32At bytes (bytes.length - 4) = crc ((bytes.drop 2).take (bytes.length - 6)) := by
  refine and_congr_right fun long => and_congr_right fun _ => ?_
  have received := bytes32_word32At bytes (bytes.length - 4) (by omega)
  rw [List.take_of_length_le (by simp; omega)] at received
  rw [received]
  exact ⟨bytes32_injective, congrArg _⟩

section
variable {profile : Byte} {n number : Nat} {own : Bool} {bytes : List Byte}

theorem classify_bitsOfBytes : classify profile n number own (bitsOfBytes bytes) = classifyBytes profile n number own bytes := by
  rw [classify, bytesOfBits_bitsOfBytes]

/-- Checks 1 to 3 (R106). -/
theorem classifyBytes_of_not_carriesCheck (fails : ¬ CarriesCheck bytes) :
    classifyBytes profile n number own bytes = .fault := by
  unfold classifyBytes
  simp only [Config.shortestFrame]
  by_cases short : bytes.length < 29
  · rw [if_pos short]
  · by_cases sync : bytes.take 2 = syncBytes
    · have check : word32At bytes (bytes.length - 4) ≠ crc ((bytes.drop 2).take (bytes.length - 6)) :=
        fun check => fails (carriesCheck_iff.mpr ⟨by omega, sync, check⟩)
      rw [if_neg short, if_neg (by simp [sync]), if_pos check]
    · rw [if_neg short, if_pos sync]

/-- The profile check stands behind the sync pattern. -/
theorem byteAt_body (long : 29 ≤ bytes.length) :
    byteAt ((bytes.drop 2).take (bytes.length - 6)) 0 = bytes.getD 2 0 :=
  agreeAt_drop_take bytes 2 (bytes.length - 6) 0 (by omega)

/-- Check 4 (R106, R107). -/
theorem classifyBytes_of_profile (carries : CarriesCheck bytes) (other : bytes.getD 2 0 ≠ profile) :
    classifyBytes profile n number own bytes = .profile (bytes.getD 2 0) := by
  obtain ⟨long, sync, check⟩ := carriesCheck_iff.mp carries
  unfold classifyBytes
  simp only [Config.shortestFrame]
  rw [if_neg (by omega), if_neg (by simp [sync]), if_neg (by simp [check]), byteAt_body long, if_pos other]

/-- Checks 5 to 9 of an item whose bytes carry a frame in range (R106, R108). -/
theorem classifyBytes_of_carried {f : Frame} (carries : CarriesCheck bytes) (same : bytes.getD 2 0 = profile)
    (wf : f.wf n = true) (carried : CarriedBy bytes f) :
    classifyBytes profile n number own bytes = if f.sender = number ∧ own = false then .duplicate else Heard.ofFrame f := by
  obtain ⟨long, sync, check⟩ := carriesCheck_iff.mp carries
  unfold classifyBytes
  simp only [Config.shortestFrame]
  rw [if_neg (by omega), if_neg (by simp [sync]), if_neg (by simp [check]), byteAt_body long, if_neg (not_not.mpr same),
    (parseFrame_iff long).mpr ⟨wf, carried⟩]
  simp

/-- Checks 5 to 8 of an item whose bytes carry no frame in range (R106). -/
theorem classifyBytes_of_nothing (carries : CarriesCheck bytes) (same : bytes.getD 2 0 = profile)
    (nothing : ∀ f : Frame, f.wf n = true → ¬ CarriedBy bytes f) : classifyBytes profile n number own bytes = .fault := by
  obtain ⟨long, sync, check⟩ := carriesCheck_iff.mp carries
  have unparsed : parseFrame n ((bytes.drop 2).take (bytes.length - 6)) (word32At bytes (bytes.length - 4)) = none := by
    rw [Option.eq_none_iff_forall_ne_some]
    intro f parsed
    obtain ⟨wf, carried⟩ := (parseFrame_iff long).mp parsed
    exact nothing f wf carried
  unfold classifyBytes
  simp only [Config.shortestFrame]
  rw [if_neg (by omega), if_neg (by simp [sync]), if_neg (by simp [check]), byteAt_body long, if_neg (not_not.mpr same), unparsed]

/-- An item classified as a frame carries that frame, in range (R106). -/
theorem classify_ofFrame {bits : List Bool} {f : Frame} (heard : classify profile n number own bits = Heard.ofFrame f) :
    f.wf n = true ∧ (f.sender = number → own = true) := by
  have notFault : ∀ f, Heard.fault ≠ Heard.ofFrame f := by rintro (_ | _) <;> simp [Heard.ofFrame]
  have notProfile : ∀ p f, Heard.profile p ≠ Heard.ofFrame f := by rintro p (_ | _) <;> simp [Heard.ofFrame]
  have notDuplicate : ∀ f, Heard.duplicate ≠ Heard.ofFrame f := by rintro (_ | _) <;> simp [Heard.ofFrame]
  have injective : ∀ f g, Heard.ofFrame f = Heard.ofFrame g → f = g := by
    rintro (_ | _) (_ | _) e <;> cases e <;> rfl
  unfold classify at heard
  cases hb : bytesOfBits bits with
  | none => rw [hb] at heard; exact absurd heard (notFault f)
  | some bytes =>
    rw [hb] at heard
    by_cases carries : CarriesCheck bytes
    · by_cases same : bytes.getD 2 0 = profile
      · by_cases present : ∃ g : Frame, g.wf n = true ∧ CarriedBy bytes g
        · obtain ⟨g, wf, carried⟩ := present
          simp only [classifyBytes_of_carried carries same wf carried] at heard
          by_cases dup : g.sender = number ∧ own = false
          · rw [if_pos dup] at heard; exact absurd heard (notDuplicate f)
          · rw [if_neg dup] at heard
            rw [← injective _ _ heard]
            exact ⟨wf, fun e => by simpa [e] using dup⟩
        · simp only [classifyBytes_of_nothing carries same fun g wf carried => present ⟨g, wf, carried⟩] at heard
          exact absurd heard (notFault f)
      · simp only [classifyBytes_of_profile carries same] at heard
        exact absurd heard (notProfile _ f)
    · simp only [classifyBytes_of_not_carriesCheck carries] at heard
      exact absurd heard (notFault f)

end

/-- The least length of an item in range: a record has a claim (R116). -/
theorem itemLength_le {n i : Nat} {it : SnapItem} (wf : it.wf n i = true) : 12 ≤ itemLength it := by
  cases it with
  | roster r => simp only [itemLength]; omega
  | record r =>
    simp only [SnapItem.wf, ResRecord.wf, Bool.and_eq_true, decide_eq_true_eq] at wf
    obtain ⟨-, ⟨⟨⟨⟨-, claimed⟩, -⟩, -⟩, -⟩, -⟩ := wf
    simp only [itemLength]
    omega

/-- A frame in range is no shorter than check 2 has it (R106). -/
theorem carried_length {n : Nat} {bytes : List Byte} {f : Frame} (wf : f.wf n = true) (carried : CarriedBy bytes f) :
    29 ≤ bytes.length := by
  cases f with
  | stream f =>
    obtain ⟨-, -, -, -, -, -, -, -, -, len, -⟩ := carried
    omega
  | transfer t =>
    obtain ⟨-, -, -, -, -, -, -, -, -, -, len, -⟩ := carried
    obtain ⟨-, -, -, -, count, -, -, -, items⟩ := TransferFrame.wf_iff.mp wf
    obtain ⟨it, its, e⟩ := List.exists_cons_of_length_pos (l := t.items) (by omega)
    rw [e, itemsWf, Bool.and_eq_true] at items
    have first := itemLength_le items.1
    rw [e, List.map_cons, List.sum_cons] at len
    omega

/-- Settles O23: the encoder writes each field where CarriedBy reads it, and the parser accepts exactly what is carried. -/
theorem encodedFramesReadBack : Obligations.EncodedFramesReadBack := by
  refine ⟨fun profile n number own f small wf sender => ?_, fun profile n number own bits ragged => ?_,
    fun profile n number own bytes => ⟨fun fails => ?_, fun carries other => ?_⟩,
    fun profile n bytes carries same => ⟨fun f wf carried number own => ?_, fun nothing number own => ?_⟩,
    fun s => ⟨fun failed => ?_, fun profile whole short agrees held => ?_⟩⟩
  · have wf' : (f.sealed profile).wf n = true := by cases f <;> exact wf
    have carried := carriedBy_encodeFrame small profile f wf
    have long := carried_length wf' carried
    obtain ⟨carries, same⟩ := encodeFrame_carriesCheck profile f long
    rw [classify_bitsOfBytes, classifyBytes_of_carried carries same wf' carried, if_neg]
    rintro ⟨mine, notOwn⟩
    rcases sender with own | other
    · rw [own] at notOwn; cases notOwn
    · exact other (by cases f <;> exact mine)
  · rw [classify, bytesOfBits_ragged bits ragged]
  · rw [classify_bitsOfBytes, classifyBytes_of_not_carriesCheck fails]
  · rw [classify_bitsOfBytes, classifyBytes_of_profile carries other]
  · rw [classify_bitsOfBytes, classifyBytes_of_carried carries same wf carried]
  · rw [classify_bitsOfBytes, classifyBytes_of_nothing carries same nothing]
  · rw [State.heard, if_pos (by rcases failed with e | e | e <;> simp [e])]
  · rw [State.heard, if_neg (by simp [whole, short, agrees]), State.profile, held]
    rfl

end Sys2Proof.Machine
end

section
/-! PROOFS. The joiner: the fate of its JOIN, the catch-up queue, and the assembly of its image (R120 to R127). -/

namespace Sys2Proof.Machine

/-! ### What is heard is in range (R106) -/

/-- An item heard as a frame is in range, and its sender is the station only when the item is its own (R106, R108). -/
theorem State.heard_ofFrame {s : State} {f : Frame} (heard : s.heard = Heard.ofFrame f) :
    f.wf s.groupSize = true ∧ (f.sender = s.number → s.lif.item.own = true) := by
  rw [State.heard] at heard
  split at heard
  · cases f <;> cases heard
  · exact classify_ofFrame heard

/-! ### The catch-up queue (R124) -/

section
variable {s : State} {e : CatchEntry}

theorem State.catchAppend_of_room (room : s.xfu.catchup.length < 48) :
    s.catchAppend e = s.setXfu { s.xfu with catchup := s.xfu.catchup ++ [e] } := if_pos room

theorem State.catchAppend_of_full (full : 48 ≤ s.xfu.catchup.length) :
    s.catchAppend e = joinFailed s .catchupFull s.trk.rotation := by
  rw [← State.joinFail_eq]
  exact if_neg (show ¬ s.xfu.catchup.length < 48 by omega)

/-- A hole marker is queued for a fault of any classification (R124). -/
theorem State.catchItem_of_fault {h : Heard} (fault : h.isFault = true) (own : Bool) (sent : Option OwnItem) :
    s.catchItem h own sent = s.catchAppend (.hole sent) := by
  cases h <;> first | rfl | cases fault

end

theorem State.replayingItem_of_fault {s : State} {h : Heard} (fault : h.isFault = true) (r : Word32) :
    s.replayingItem h r = s := by
  cases h <;> first | rfl | cases fault

/-! ### Items at a station that awaits or gathers (R67, R105) -/

section
variable {s : State} {g : StreamFrame} (hd : DeliversStream s g)
include hd

/-- In JOINING the frame is last heard, and the attempt takes it (R68, R120). -/
theorem exec_delivery_awaited (state : s.stc.station = .joining) (phase : s.xfu.phase = .awaiting) :
    exec .itemDelivery s
      = .next ((takenFrame s g).awaitItem (.stream g) (decide (g.sender = s.number)) s.ownSent) := by
  refine (execItemDelivery_stream hd).trans (congrArg Host.Outcome.next ?_)
  have heard : (s.adopted g).cmuItem (.stream g) (decide (g.sender = s.number)) s.ownSent s.trk.rotation
      = takenFrame s g := by
    simp only [State.cmuItem, State.adopted_stc, state, State.listenItem, decide_eq_false hd.1, Bool.false_and]
    rfl
  have waits : (takenFrame s g).xfu.phase = .awaiting := phase
  rw [heard, State.xfuItem, waits]

/-- In GATHERING and REPLAYING the frame is last heard, and queued (R68, R124). -/
theorem exec_delivery_gathered (state : s.stc.station = .loading)
    (phase : s.xfu.phase = .gathering ∨ s.xfu.phase = .replaying) :
    exec .itemDelivery s = .next ((takenFrame s g).catchAppend (.frame g (decide (g.sender = s.number)))) := by
  refine (execItemDelivery_stream hd).trans (congrArg Host.Outcome.next ?_)
  have heard : (s.adopted g).cmuItem (.stream g) (decide (g.sender = s.number)) s.ownSent s.trk.rotation
      = takenFrame s g := by
    rcases phase with e | e <;>
      simp only [State.cmuItem, State.adopted_stc, state, State.adopted_xfu, adoptedXfu_phase, e, State.listenItem,
        State.replayingItem, decide_eq_false hd.1, Bool.false_and, if_neg hd.1] <;> rfl
  have queues : (takenFrame s g).xfu.phase = s.xfu.phase := rfl
  have caught : ∀ sent, (takenFrame s g).catchItem (.stream g) (decide (g.sender = s.number)) sent
      = (takenFrame s g).catchAppend (.frame g (decide (g.sender = s.number))) := fun _ => if_neg hd.1
  rw [heard, State.xfuItem, queues]
  rcases phase with e | e <;> simp only [e, caught]

end

section
variable {s : State} {sent : Option Frame} {h : Heard} (hd : DeliversFault s sent h)
include hd

theorem exec_delivery_fault_awaited {t : State} (state : s.stc.station = .joining) (phase : s.xfu.phase = .awaiting)
    (taken : (faulted s h).awaitItem h sent.isSome (sent.map sentItem) = t) (notLeaving : t.stc.station ≠ .leaving) :
    exec .itemDelivery s = .next t := by
  refine (execItemDelivery_faulted hd (State.faultEndsTurn_of (.inl state))).trans (congrArg Host.Outcome.next ?_)
  have heard : (faulted s h).cmuItem h sent.isSome (sent.map sentItem) s.trk.rotation = faulted s h := by
    simp only [State.cmuItem, faulted_stc, state, State.listenItem_of_fault hd.1]
  have waits : (faulted s h).xfu.phase = .awaiting := (faultXfu_phase s).trans phase
  have attempt : (faulted s h).xfuItem h sent.isSome (sent.map sentItem) = t := by
    simp only [State.xfuItem, waits, taken]
  rw [heard, attempt, State.leaveLoopback_other _ _ _ notLeaving]

theorem exec_delivery_fault_gathered {t : State} (state : s.stc.station = .loading)
    (phase : s.xfu.phase = .gathering ∨ s.xfu.phase = .replaying)
    (taken : (faulted s h).catchAppend (.hole (sent.map sentItem)) = t) (notLeaving : t.stc.station ≠ .leaving) :
    exec .itemDelivery s = .next t := by
  refine (execItemDelivery_faulted hd (State.faultEndsTurn_of (.inr (.inl state)))).trans (congrArg Host.Outcome.next ?_)
  have queues : (faulted s h).xfu.phase = s.xfu.phase := faultXfu_phase s
  have heard : (faulted s h).cmuItem h sent.isSome (sent.map sentItem) s.trk.rotation = faulted s h := by
    rcases phase with e | e <;> simp only [State.cmuItem, faulted_stc, state, queues, e]
    · exact State.listenItem_of_fault hd.1 _
    · exact State.replayingItem_of_fault hd.1 _
  have attempt : (faulted s h).xfuItem h sent.isSome (sent.map sentItem) = t := by
    rcases phase with e | e <;> simp only [State.xfuItem, queues, e, State.catchItem_of_fault hd.1, taken]
  rw [heard, attempt, State.leaveLoopback_other _ _ _ notLeaving]

/-- A fault queued, or the attempt failed (R124, R132). -/
theorem exec_delivery_fault_queued (queued : (s.stc.station = .loading ∧ (s.xfu.phase = .gathering ∨ s.xfu.phase = .replaying))
      ∨ (s.stc.station = .joining ∧ s.xfu.phase = .awaiting
        ∧ ∃ join : FrameRef, s.xfu.joinMark = some ⟨join.id, some join.check⟩)) :
    (s.xfu.catchup.length < 48 → exec .itemDelivery s = .next { faulted s h with
      xfu := { faultXfu s with catchup := s.xfu.catchup ++ [.hole (sent.map sentItem)] } })
    ∧ (48 ≤ s.xfu.catchup.length →
      exec .itemDelivery s = .next (joinFailed (faulted s h) .catchupFull (faultTrk s).rotation)) := by
  have catchup : (faulted s h).xfu.catchup = s.xfu.catchup := faultXfu_catchup s
  have append : ∀ t, (faulted s h).catchAppend (.hole (sent.map sentItem)) = t → t.stc.station ≠ .leaving →
      exec .itemDelivery s = .next t := by
    intro t taken notLeaving
    rcases queued with ⟨state, phase⟩ | ⟨state, phase, join, mark⟩
    · exact exec_delivery_fault_gathered hd state phase taken notLeaving
    · have marked : (faulted s h).xfu.joinMark = some ⟨join.id, some join.check⟩ := (faultXfu_joinMark s).trans mark
      refine exec_delivery_fault_awaited hd state phase ?_ notLeaving
      rw [← taken, State.awaitItem, marked]
      obtain ⟨fault, -⟩ := hd
      cases h <;> first | rfl | cases fault
  have state : (faulted s h).stc.station ≠ .leaving := by
    rcases queued with ⟨e, -⟩ | ⟨e, -⟩ <;> simp [e]
  refine ⟨fun room => ?_, fun full => ?_⟩
  · refine append _ (State.catchAppend_of_room (by rw [catchup]; exact room)) state |>.trans ?_
    rw [catchup]
    rfl
  · exact append _ (State.catchAppend_of_full (by rw [catchup]; exact full)) (by simp [joinFailed])

end

/-- A join attempt that fails at a frame: what it clears (R132). -/
theorem joinFailed_takenFrame (s : State) (g : StreamFrame) (why : JoinFailure) :
    joinFailed (takenFrame s g) why (adoptedTrk s g).rotation = { s with
      lif := deliveredLif s.lif
      trk := adoptedTrk s g
      cmu := { Cmu.cleared with
        lastHeard := some ⟨⟨g.rotation, g.sender⟩, g.check⟩, foundReported := s.cmu.foundReported }
      tbu := Tbu.cleared
      xfu := { adoptedXfu s g with
        phase := .idle, joinMark := none, catchup := [], snapshot := none, map := Vector.replicate 65 none
        total := none, wanted := 0, stall := 0 }
      stc := { s.stc with station := .listening, leave := .idle }
      ntq := s.ntq.offer (stateNote .listening .joinFailed (some why) (adoptedTrk s g).rotation) } :=
  State.ext_blocks rfl ((listeningTrk_eq _).trans (adoptedTrk_enterListening s g)) rfl rfl rfl rfl rfl rfl rfl rfl rfl rfl

/-- Settles O44: both kinds of entry are appended, or the attempt fails. -/
theorem catchupQueueKeepsFortyEightItems : Obligations.CatchupQueueKeepsFortyEightItems := by
  refine ⟨fun s sent h hd state phase => exec_delivery_fault_queued hd (.inl ⟨state, phase⟩), fun s g hd state phase => ?_⟩
  rw [exec_delivery_gathered hd state phase]
  refine ⟨fun room => ?_, fun full => ?_⟩
  · rw [State.catchAppend_of_room (s := takenFrame s g) room]
    rfl
  · rw [State.catchAppend_of_full (s := takenFrame s g) full]
    exact congrArg Host.Outcome.next (joinFailed_takenFrame s g _)

/-! ### The JOIN and its fate (R120, R121, R123) -/

section
variable {s : State} {g : StreamFrame} {join : FrameRef}

theorem State.awaitItem_of_marked (mark : s.xfu.joinMark = some ⟨join.id, some join.check⟩) (notFound : g.kind ≠ .found)
    (own : Bool) (sent : Option OwnItem) : s.awaitItem (.stream g) own sent = s.joinFate join g own := by
  simp only [State.awaitItem, mark, if_neg notFound]

theorem State.joinFate_of_full (names : g.echo = some join) (full : 48 ≤ s.xfu.catchup.length) (own : Bool) :
    s.joinFate join g own = joinFailed s .catchupFull s.trk.rotation := by
  rw [State.joinFate, if_pos names, if_neg (show ¬ s.xfu.catchup.length < 48 by omega), State.joinFail_eq]

theorem State.joinFate_of_room (names : g.echo = some join) (room : s.xfu.catchup.length < 48) (own : Bool) :
    s.joinFate join g own = (s.setXfu { s.xfu with catchup := s.xfu.catchup ++ [.frame g own] }).enterGathering join := by
  rw [State.joinFate, if_pos names, if_pos (show s.xfu.catchup.length < Config.catchupPlaces from room),
    State.catchAppend_of_room room]

theorem State.joinFate_of_void (denies : g.echo ≠ some join) (whole : ∀ e ∈ s.xfu.catchup, e.isHole = false) (own : Bool) :
    s.joinFate join g own = s.setXfu { s.xfu with catchup := [], joinMark := none } := by
  have none : s.xfu.catchup.any CatchEntry.isHole = false := by simpa [List.any_eq_false] using whole
  rw [State.joinFate, if_neg denies, if_neg (by simp [none])]

theorem State.joinFate_of_divergence (denies : g.echo ≠ some join) (hole : ∃ e ∈ s.xfu.catchup, e.isHole = true)
    (own : Bool) : s.joinFate join g own = joinFailed s .diverged s.trk.rotation := by
  rw [State.joinFate, if_neg denies, if_pos (by simpa [List.any_eq_true] using hole), State.joinFail_eq]

end

/-- Settles O43: by the join mark, none, incomplete or complete, and then by the first echo. -/
theorem joinFateFollowsTheFirstEcho : Obligations.JoinFateFollowsTheFirstEcho := by
  refine ⟨fun s id state phase mark => ⟨fun g hd own => ?_, fun g hd other => ?_, fun f h hd => ?_⟩,
    fun s g hd state phase unmarked => ?_,
    fun s sent h join hd state phase mark => exec_delivery_fault_queued hd (.inr ⟨state, phase, join, mark⟩),
    fun s g join hd state phase mark names full => ?_,
    fun s g join hd state phase mark => ⟨fun names room => ?_, fun denies whole => ?_, fun denies hole => ?_⟩⟩
  · rw [exec_delivery_awaited hd state phase, State.awaitItem, show (takenFrame s g).xfu.joinMark = _ from mark]
    simp only [own, decide_true, if_true]
    rfl
  · rw [exec_delivery_awaited hd state phase, State.awaitItem, show (takenFrame s g).xfu.joinMark = _ from mark]
    simp [other]
  · refine exec_delivery_fault_awaited hd state phase ?_ (by simp [state])
    rw [State.awaitItem, show (faulted s h).xfu.joinMark = _ from (faultXfu_joinMark s).trans mark]
    obtain ⟨fault, -⟩ := hd
    cases h <;> first | rfl | cases fault
  · rw [exec_delivery_awaited hd state phase, State.awaitItem, show (takenFrame s g).xfu.joinMark = _ from unmarked]
  · rw [exec_delivery_awaited hd state phase, State.awaitItem_of_marked (s := takenFrame s g) mark hd.1,
      State.joinFate_of_full (s := takenFrame s g) names full]
    rfl
  · rw [exec_delivery_awaited hd state phase, State.awaitItem_of_marked (s := takenFrame s g) mark hd.1,
      State.joinFate_of_room (s := takenFrame s g) names room]
    rfl
  · rw [exec_delivery_awaited hd state phase, State.awaitItem_of_marked (s := takenFrame s g) mark hd.1,
      State.joinFate_of_void (s := takenFrame s g) denies whole]
    rfl
  · rw [exec_delivery_awaited hd state phase, State.awaitItem_of_marked (s := takenFrame s g) mark hd.1,
      State.joinFate_of_divergence (s := takenFrame s g) denies hole]
    exact congrArg Host.Outcome.next (joinFailed_takenFrame s g _)

/-! ### Transfer frames (R89, R125) -/

/-- The station with a transfer frame taken by LIF and TRK (R89, R105). -/
def takenTransfer (s : State) (t : TransferFrame) : State :=
  { s with
    lif := deliveredLif s.lif
    trk := transferTrk s t
    xfu := { s.xfu with
      stall := stallAfter s t.sender t.donorRotation (transferPasses s t)
      plan := if t.sender = s.number ∧ transferPasses s t = false then s.xfu.plan else none } }

theorem State.cmuItem_of_transfer {s : State} (notFounding : s.stc.station ≠ .founding) (t : TransferFrame) (own : Bool)
    (sent : Option OwnItem) (r : Word32) : s.cmuItem (.transfer t) own sent r = s := by
  unfold State.cmuItem
  split <;> first | rfl | exact absurd ‹_› notFounding | (split <;> rfl)

theorem State.xfuItem_of_transfer {s : State} (phase : s.xfu.phase ≠ .gathering) (t : TransferFrame) (own : Bool)
    (sent : Option OwnItem) : s.xfuItem (.transfer t) own sent = s := by
  unfold State.xfuItem
  split
  · unfold State.awaitItem
    split
    · rfl
    · split <;> rfl
    · rfl
  · exact absurd ‹_› phase
  · exact if_neg phase
  · rfl
  · rfl

/-- A transfer frame delivered, another's or the own: TRK adopts it, and then XFU takes it (R89, R105). -/
theorem exec_delivery_transfer {s : State} {t : TransferFrame}
    (hd : (Delivers s (.transfer t) ∧ t.sender ≠ s.number) ∨ (∃ f, DeliversOwn s f (.transfer t) ∧ t.sender = s.number))
    (notFounding : s.stc.station ≠ .founding) :
    ∃ own sent, exec .itemDelivery s = .next ((takenTransfer s t).xfuItem (.transfer t) own sent) := by
  have taken : ∀ own sent r, ((s.lifReport (.transfer t)).trackItem (.transfer t) own).itemTaken.cmuItem (.transfer t) own
      sent r = takenTransfer s t := by
    intro own sent r
    rw [State.lifReport, State.trackItem_transfer]
    exact State.cmuItem_of_transfer (s := takenTransfer s t) notFounding t own sent r
  have quiet : ∀ (u : State) sent, u.leaveLoopback (.transfer t) sent = u := fun u sent => by
    simp [State.leaveLoopback, Heard.isFault]
  rcases hd with ⟨hd, -⟩ | ⟨f, hd, -⟩
  · exact ⟨false, none, by rw [show exec .itemDelivery s = _ from execItemDelivery_of_other hd, taken, quiet]⟩
  · exact ⟨true, some f.ownItem, by rw [show exec .itemDelivery s = _ from execItemDelivery_of_own hd, taken, quiet]⟩

/-! ### The assembly map (R125, R126) -/

/-- A slot after a run of items is written into the map. -/
theorem fillMap_get : ∀ (items : List SnapItem) (m : Vector (Option SnapItem) 65) (i j : Nat), i + items.length ≤ 65 →
    (fillMap m i items)[j]?.getD none = if i ≤ j ∧ j < i + items.length then items[j - i]? else m[j]?.getD none
  | [], m, i, j, _ => by
    rw [if_neg (by simp)]
    rfl
  | it :: rest, m, i, j, room => by
    rw [List.length_cons] at room
    rw [fillMap, fillMap_get rest _ (i + 1) j (by omega), List.length_cons]
    by_cases here : j = i
    · subst here
      rw [if_neg (by omega), if_pos (by omega), Nat.sub_self, Vector.getElem?_setIfInBounds_self,
        if_pos (show j < 65 by omega)]
      rfl
    · by_cases behind : i + 1 ≤ j ∧ j < i + 1 + rest.length
      · rw [if_pos behind, if_pos (by omega), show j - i = j - (i + 1) + 1 by omega, List.getElem?_cons_succ]
      · rw [if_neg behind, if_neg (by omega), Vector.getElem?_setIfInBounds_ne (by omega)]

/-- A list read slot by slot. -/
theorem filterMap_range_of_slots {α : Type} (l : List α) (f : Nat → Option α) (h : ∀ i < l.length, f i = l[i]?) :
    (List.range l.length).filterMap f = l := by
  induction l generalizing f with
  | nil => rfl
  | cons x xs ih =>
    rw [List.length_cons, List.range_succ_eq_map, List.filterMap_cons, h 0 (by simp), List.getElem?_cons_zero,
      List.filterMap_map]
    exact congrArg (x :: ·) (ih _ fun i hi => (h (i + 1) (by simpa using hi)).trans List.getElem?_cons_succ)

/-- With a slot empty, the slots below the total give fewer items (R125). -/
theorem filterMap_range_short {α : Type} (f : Nat → Option α) {n w : Nat} (below : w < n) (empty : f w = none) :
    ((List.range n).filterMap f).length ≠ n := by
  intro full
  have all := (List.filterMap_length_eq_length (f := f) (l := List.range n)).mp (by simpa using full)
  simpa [empty] using all w (by simpa using below)

/-- The wanted index is the lowest empty slot (R126). -/
theorem wantedOf_of_empty {m : Vector (Option SnapItem) 65} {n w : Nat} (below : w < n) (empty : m[w]?.getD none = none)
    (filled : ∀ i < w, m[i]?.getD none ≠ none) : wantedOf m n = w := by
  have found : (List.range n).find? (fun i => (m[i]?.getD none).isNone) = some w := by
    rw [List.find?_range_eq_some]
    refine ⟨by simp [empty], by simpa using below, fun i hi => ?_⟩
    simpa [Option.isSome_iff_ne_none] using filled i hi
  rw [wantedOf, found, Option.getD_some]

theorem wantedOf_of_full {m : Vector (Option SnapItem) 65} {n : Nat} (filled : ∀ i < n, m[i]?.getD none ≠ none) :
    wantedOf m n = n := by
  have none : (List.range n).find? (fun i => (m[i]?.getD none).isNone) = none := by
    rw [List.find?_eq_none]
    intro i hi
    simpa [Option.isNone_iff_eq_none] using filled i (by simpa using hi)
  rw [wantedOf, none, Option.getD_none]

/-! ### One image (R125) -/

theorem ascending_iff : ∀ recs : List ResRecord, ascending recs = true ↔ recs.Pairwise (fun a b => a.resource < b.resource)
  | [] => by simp [ascending]
  | [_] => by simp [ascending]
  | a :: b :: rest => by
    rw [ascending, Bool.and_eq_true, decide_eq_true_eq, ascending_iff (b :: rest), List.pairwise_cons (a := a)]
    refine and_congr_left fun tail => ⟨fun first c hc => ?_, fun all => all b (by simp)⟩
    rcases List.mem_cons.mp hc with rfl | hc
    · exact first
    · exact BitVec.lt_trans first ((List.pairwise_cons.mp tail).1 c hc)

theorem holders_fit_iff (r : ResRecord) :
    (!r.holders.isEmpty && (!hasExclusive r.holders || decide (r.holders.length = 1))) = true
      ↔ r.holders ≠ [] ∧ exclusiveAlone r := by
  simp only [Bool.and_eq_true, Bool.not_eq_true', List.isEmpty_eq_false_iff, Bool.or_eq_true, decide_eq_true_eq]
  refine and_congr_right fun _ => ?_
  rw [exclusiveAlone, hasExclusive]
  constructor
  · rintro (no | one) c hc e
    · simp only [List.any_eq_false] at no
      exact absurd e (by simpa using no c hc)
    · exact one
  · intro alone
    by_cases h : ∃ c ∈ r.holders, c.mode = .exclusive
    · obtain ⟨c, hc, e⟩ := h
      exact .inr (alone c hc e)
    · refine .inl (List.any_eq_false.mpr fun c hc => ?_)
      simpa using fun e => h ⟨c, hc, e⟩

theorem oneImage_iff (ros : RosterItem) (recs : List ResRecord) : oneImage ros recs = true ↔ ImageForm ros recs := by
  unfold oneImage ImageForm
  simp only [Bool.and_eq_true, decide_eq_true_eq, List.all_eq_true, and_assoc, ascending_iff, List.mem_range,
    Config.claimPool, Config.quota]
  refine and_congr_right fun _ => and_congr (forall_congr' fun r => forall_congr' fun _ => ?_) Iff.rfl
  simpa [and_assoc] using holders_fit_iff r

/-! ### A transfer frame stored (R125) -/

/-- Which transfer frames are stored (R125). -/
theorem storable_iff {s : State} {t : TransferFrame} :
    (takenTransfer s t).storable t = true ↔ ∃ snap, StoresTransfer s snap t := by
  have number : (takenTransfer s t).number = s.number := rfl
  have snapshot : (takenTransfer s t).xfu.snapshot = s.xfu.snapshot := rfl
  have total : (takenTransfer s t).xfu.total = s.xfu.total := rfl
  rw [State.storable, snapshot, total, number]
  cases known : s.xfu.snapshot with
  | none => simp [StoresTransfer, known]
  | some snap =>
    simp only [Bool.and_eq_true, decide_eq_true_eq, and_assoc, List.all_eq_true]
    constructor
    · rintro ⟨joiner, rotation, total, items⟩
      refine ⟨snap, known, joiner, rotation, fun n e => ?_, fun r hr => of_decide_eq_true (items _ hr)⟩
      rw [e] at total
      exact of_decide_eq_true total
    · rintro ⟨other, e, joiner, rotation, total, items⟩
      cases known.symm.trans e
      refine ⟨joiner, rotation, ?_, fun it hit => ?_⟩
      · split
        · rfl
        · exact decide_eq_true (total _ ‹_›)
      · cases it with
        | roster r => exact decide_eq_true (items r hit)
        | record r => rfl

/-- The joiner side with a transfer frame written into it (R125, R126). -/
def storedXfu (s : State) (t : TransferFrame) : Xfu :=
  { (takenTransfer s t).xfu with
    map := fillMap s.xfu.map t.first t.items, total := some t.total
    wanted := wantedOf (fillMap s.xfu.map t.first t.items) t.total, stall := storedStall s t }

theorem storeTransfer_of_stores {s : State} {t : TransferFrame} {snap : FrameRef} (stores : StoresTransfer s snap t) :
    (takenTransfer s t).storeTransfer t = ((takenTransfer s t).setXfu (storedXfu s t)).checkMap t.total := by
  have fresh : (List.range t.items.length).any (fun i => ((takenTransfer s t).xfu.slot (t.first + i)).isNone) = true
      ↔ ∃ i < t.items.length, s.xfu.slot (t.first + i) = none := by
    rw [List.any_eq_true]
    simp only [List.mem_range, Option.isNone_iff_eq_none]
    rfl
  have stall : (if (List.range t.items.length).any (fun i => ((takenTransfer s t).xfu.slot (t.first + i)).isNone) then 0
      else (takenTransfer s t).xfu.stall) = storedStall s t := by
    rw [storedStall]
    exact if_congr fresh rfl rfl
  rw [State.storeTransfer, if_pos (storable_iff.mpr ⟨snap, stores⟩)]
  dsimp only
  rw [stall]
  rfl

section
variable {s : State} {t : TransferFrame} (room : t.first + t.items.length ≤ 65)
include room

theorem storedXfu_slot (i : Nat) : (storedXfu s t).slot i = filledSlot s t i :=
  fillMap_get t.items s.xfu.map t.first i room

/-- A slot below the total stays empty: gathering goes on. -/
theorem checkMap_of_empty {w : Nat} (below : w < t.total) (empty : filledSlot s t w = none) :
    ((takenTransfer s t).setXfu (storedXfu s t)).checkMap t.total = (takenTransfer s t).setXfu (storedXfu s t) := by
  refine if_neg (filterMap_range_short _ below ?_)
  exact (storedXfu_slot room w).trans empty

/-- Every slot below the total is filled: the items in order. -/
theorem completeMap_items {ros : RosterItem} {recs : List ResRecord} (complete : CompletesMap s t ros recs) :
    (List.range t.total).filterMap (storedXfu s t).slot = .roster ros :: recs.map .record := by
  obtain ⟨total, -, first, others⟩ := complete
  have len : t.total = (SnapItem.roster ros :: recs.map .record).length := by simp [total]
  rw [len]
  refine filterMap_range_of_slots _ _ fun i hi => ?_
  rw [storedXfu_slot room]
  cases i with
  | zero => exact first
  | succ i =>
    rw [others i (by simpa using hi), List.getElem?_cons_succ, List.getElem?_map]

theorem storedXfu_wanted {ros : RosterItem} {recs : List ResRecord} (complete : CompletesMap s t ros recs) :
    (storedXfu s t).wanted = t.total := by
  obtain ⟨total, -, first, others⟩ := complete
  refine wantedOf_of_full fun i hi => ?_
  rw [show (fillMap s.xfu.map t.first t.items)[i]?.getD none = filledSlot s t i from storedXfu_slot room i]
  cases i with
  | zero => simp [first]
  | succ i =>
    rw [others i (by omega), List.getElem?_eq_getElem (by omega)]
    simp

omit room in
theorem recordsOf_map_record (recs : List ResRecord) : recordsOf (recs.map .record) = recs := by
  induction recs with
  | nil => rfl
  | cons r rs ih => exact congrArg (r :: ·) ih

/-- The complete map is checked: its items form one image, or gathering starts over. -/
theorem checkMap_of_complete {ros : RosterItem} {recs : List ResRecord} (complete : CompletesMap s t ros recs) :
    ((takenTransfer s t).setXfu (storedXfu s t)).checkMap t.total
      = if oneImage ros recs then ((takenTransfer s t).setXfu (storedXfu s t)).startReplay ros recs t.total
        else ((takenTransfer s t).setXfu (storedXfu s t)).regather := by
  have items := completeMap_items room complete
  obtain ⟨total, -⟩ := complete
  unfold State.checkMap
  rw [show ((takenTransfer s t).setXfu (storedXfu s t)).xfu = storedXfu s t from rfl, items]
  simp only [recordsOf_map_record, List.length_cons, List.length_map, ← total, if_true]

end

/-- The station with an image loaded (R18, R85, R127). -/
def State.loaded (s : State) (ros : RosterItem) (recs : List ResRecord) (total : Nat) : State :=
  { s with
    xfu := { s.xfu with phase := .replaying, map := Vector.replicate 65 none, wanted := total }
    tbu := Tbu.ofImage ros recs
    cmu := { s.cmu.clearStream with last := some ros.last, check := ros.streamCheck } }

section
variable {s : State} {ros : RosterItem} {recs : List ResRecord} {total : Nat}

theorem State.startReplay_eq : s.startReplay ros recs total
    = if ((rosterOf ros.entries)[s.number]?.getD .vacant).isJoining then (s.loaded ros recs total).endReplay
      else joinFailed (s.loaded ros recs total) .removed s.trk.rotation := by
  rw [← State.joinFail_eq]
  rfl

/-- Replay begins, and is over at once with nothing queued (R128). -/
theorem startReplay_of_joining (entry : ((rosterOf ros.entries)[s.number]?.getD .vacant).isJoining = true) :
    s.startReplay ros recs total = { s.loaded ros recs total with
      xfu := { (s.loaded ros recs total).xfu with
        phase := if s.xfu.catchup = [] then .confirming else .replaying } } := by
  rw [State.startReplay_eq, if_pos entry, State.endReplay]
  have replays : (s.loaded ros recs total).xfu.phase = .replaying := rfl
  by_cases h : s.xfu.catchup = []
  · rw [if_pos ⟨replays, h⟩, if_pos h]; rfl
  · rw [if_neg fun e => h e.2, if_neg h]; rfl

theorem startReplay_of_removed (entry : ((rosterOf ros.entries)[s.number]?.getD .vacant).isJoining = false) :
    s.startReplay ros recs total = joinFailed (s.loaded ros recs total) .removed s.trk.rotation := by
  rw [State.startReplay_eq, if_neg (by simp [entry])]

end

/-- Adoption aligns the tracker, so that LISTENING follows its turns (R89, R98). -/
theorem transferTrk_enterListening (s : State) (t : TransferFrame) : (transferTrk s t).enterListening = transferTrk s t := by
  have followed : (transferTrk s t).aligned = true ∧ (transferTrk s t).window = none := by
    unfold transferTrk adoptedFrom
    cases transferPasses s t <;> exact ⟨rfl, rfl⟩
  rw [Trk.enterListening_aligned followed.1, ← followed.2]

/-- Settles O45: outside GATHERING no unit behind TRK takes the frame; in GATHERING it is refused, stored, or completes the
map. -/
theorem transferFrameIsStoredByItsJoiner : Obligations.TransferFrameIsStoredByItsJoiner := by
  refine ⟨fun s t hd notHalted notFounding phase => ?_, fun s t hd other state phase => ?_⟩
  · obtain ⟨own, sent, delivered⟩ := exec_delivery_transfer hd notFounding
    rw [delivered, State.xfuItem_of_transfer (s := takenTransfer s t) phase]
    rfl
  obtain ⟨own, sent, delivered⟩ := exec_delivery_transfer (.inl ⟨hd, other⟩) (by simp [state])
  have stored : exec .itemDelivery s = .next ((takenTransfer s t).storeTransfer t) := by
    have gathers : (takenTransfer s t).xfu.phase = .gathering := phase
    rw [delivered, State.xfuItem, gathers]
    exact congrArg Host.Outcome.next (if_pos gathers)
  have unplanned : (takenTransfer s t).xfu.plan = none := if_neg fun e => other e.1
  obtain ⟨-, -, -, heard⟩ := hd
  obtain ⟨-, -, -, -, -, -, small, room, -⟩ := TransferFrame.wf_iff.mp (State.heard_ofFrame (f := .transfer t) heard).1
  have room : t.first + t.items.length ≤ 65 := by omega
  rw [stored]
  refine ⟨fun refused => ?_, fun snap w stores below empty filled => ?_, fun snap ros recs stores complete form entry => ?_,
    fun snap ros recs stores complete form entry => ?_, fun snap ros recs stores complete noForm => ?_⟩
  · rw [State.storeTransfer, if_neg (by rw [storable_iff]; exact fun ⟨snap, stores⟩ => refused snap stores)]
    refine congrArg Host.Outcome.next (State.ext_blocks rfl rfl rfl rfl rfl rfl ?_ rfl rfl rfl rfl rfl)
    rw [← unplanned]
    rfl
  · rw [storeTransfer_of_stores stores, checkMap_of_empty room below empty]
    refine ⟨_, rfl, State.ext_blocks rfl rfl rfl rfl rfl rfl ?_ rfl rfl rfl rfl rfl, storedXfu_slot room⟩
    have wanted : (storedXfu s t).wanted = w := by
      refine wantedOf_of_empty below ((storedXfu_slot room w).trans empty) fun i hi => ?_
      rw [show (fillMap s.xfu.map t.first t.items)[i]?.getD none = filledSlot s t i from storedXfu_slot room i]
      exact filled i hi
    rw [← wanted, ← unplanned]
    rfl
  · rw [storeTransfer_of_stores stores, checkMap_of_complete room complete, if_pos ((oneImage_iff _ _).mpr form),
      startReplay_of_joining (s := (takenTransfer s t).setXfu (storedXfu s t)) entry]
    refine congrArg Host.Outcome.next (State.ext_blocks rfl rfl rfl rfl rfl rfl ?_ rfl rfl rfl rfl rfl)
    rw [← unplanned]
    rfl
  · rw [storeTransfer_of_stores stores, checkMap_of_complete room complete, if_pos ((oneImage_iff _ _).mpr form),
      startReplay_of_removed (s := (takenTransfer s t).setXfu (storedXfu s t)) entry]
    refine congrArg Host.Outcome.next (State.ext_blocks rfl ?_ rfl rfl rfl rfl ?_ rfl rfl rfl rfl rfl)
    · exact (listeningTrk_eq _).trans (transferTrk_enterListening s t)
    · rw [← unplanned]
      rfl
  · rw [storeTransfer_of_stores stores, checkMap_of_complete room complete,
      if_neg fun image => noForm ((oneImage_iff _ _).mp image)]
    refine congrArg Host.Outcome.next (State.ext_blocks rfl rfl rfl rfl rfl rfl ?_ rfl rfl rfl rfl rfl)
    rw [← unplanned]
    rfl

end Sys2Proof.Machine
end

section
/-! PROOFS. Replay and CONFIRMING: the items that a LOADING replica resolves, and the commit of the own READY (R55, R85,
R128 to R130). -/

namespace Sys2Proof.Machine

/-! ### The READY in the table (R51, R55) -/

section
variable {a : App} (j : Nat) (r : Word32)

/-- A record touched by a purge is one of the station's claims (R13). -/
theorem mem_purge_touched (ordered : recordsOrdered a.tbu.records) (fresh : a.touched = []) {x : ResRecord}
    (hx : x ∈ a.tbu.records) : x.resource ∈ (a.purge j r).touched ↔ x.claimsOf j ≠ [] := by
  show x.resource ∈ a.touched ++ (a.tbu.picked (pickStation j)).map (·.1) ↔ _
  rw [fresh, Tbu.picked_station, List.nil_append, List.map_flatMap]
  simp only [List.map_map, Function.comp_def, List.mem_flatMap, List.mem_map]
  constructor
  · rintro ⟨y, hy, c, hc, e⟩ none
    rw [ordered.unique hy hx e, none] at hc
    cases hc
  · intro some
    obtain ⟨c, cs, e⟩ := List.exists_cons_of_ne_nil some
    exact ⟨x, hx, c, by simp [e], rfl⟩

/-- A record without claims of the station is left by its purge. -/
theorem ResRecord.without_station_of_none {x : ResRecord} (none : x.claimsOf j = []) : x.without (pickStation j) = x := by
  refine ResRecord.without_of_picked_nil (p := pickStation j) ?_
  rw [ResRecord.picked, List.map_eq_nil_iff]
  exact (List.filter_append ..).symm.trans none

/-- The records after a purge and the passes on what it touched. -/
theorem App.purge_passes_records (ordered : recordsOrdered a.tbu.records) (fresh : a.touched = []) :
    ((a.purge j r).grantPasses r).tbu.records = a.tbu.records.filterMap (fun x => if x.claimsOf j = [] then some x
      else if ((x.without (pickStation j)).passed r).isBare then none else some ((x.without (pickStation j)).passed r)) := by
  show passRecords (a.purge j r).touched r (a.tbu.records.map (ResRecord.without (pickStation j))) = _
  rw [passRecords_eq, List.filterMap_map]
  refine List.filterMap_congr fun x hx => ?_
  have number : (x.without (pickStation j)).resource = x.resource := rfl
  simp only [Function.comp, number, mem_purge_touched j r ordered fresh hx, ← ResRecord.isBare_iff, not_not]
  by_cases none : x.claimsOf j = []
  · rw [if_pos none, if_pos none, ResRecord.without_station_of_none j none]
  · rw [if_neg none, if_neg none]

/-- The outcomes of a purge and of the passes on what it touched. -/
theorem App.purge_passes_out (ordered : recordsOrdered a.tbu.records) (fresh : a.touched = []) :
    ((a.purge j r).grantPasses r).out = a.out
      ++ a.tbu.records.flatMap (fun x => (x.claimsOf j).map (fun c => claimNote .lost r (x.resource, c)))
      ++ a.tbu.records.flatMap (fun x => if x.claimsOf j = [] then []
        else ((x.without (pickStation j)).grants r).map (grantNote r x.resource)) := by
  show a.out ++ (a.tbu.picked (pickStation j)).map (claimNote .lost r)
    ++ passOutcomes (a.purge j r).touched r (a.tbu.records.map (ResRecord.without (pickStation j))) = _
  rw [Tbu.picked_station, List.map_flatMap, passOutcomes_eq, List.flatMap_map]
  refine congrArg₂ (· ++ ·) (congrArg (a.out ++ ·) (List.flatMap_congr fun x _ => List.map_map)) ?_
  refine List.flatMap_congr fun x hx => ?_
  have number : (x.without (pickStation j)).resource = x.resource := rfl
  simp only [number, mem_purge_touched j r ordered fresh hx, not_not]

/-- No claim of the station is left. -/
theorem App.purge_passes_gone (ordered : recordsOrdered a.tbu.records) (fresh : a.touched = []) :
    ∀ x ∈ ((a.purge j r).grantPasses r).tbu.records, ∀ c ∈ x.claims, c.station ≠ j := by
  rw [App.purge_passes_records j r ordered fresh]
  intro x hx c hc own
  obtain ⟨y, -, e⟩ := List.mem_filterMap.mp hx
  by_cases none : y.claimsOf j = []
  · rw [if_pos none] at e
    rw [Option.some.inj e] at none
    have mine : c ∈ x.claimsOf j := List.mem_filter.mpr ⟨hc, by simpa using own⟩
    rw [none] at mine
    cases mine
  · rw [if_neg none] at e
    split at e
    · cases e
    · cases e
      have left : c.station ∈ (y.without (pickStation j)).stations := by
        rw [← ResRecord.passed_stations r]
        exact List.mem_map_of_mem hc
      rw [own] at left
      obtain ⟨d, hd, station⟩ := List.mem_map.mp left
      rcases List.mem_append.mp hd with hd | hd <;>
        simpa [pickStation, station] using (List.mem_filter.mp hd).2

theorem App.readyEffect_of_joining (h : (a.tbu.entry j).isJoining = true) :
    a.readyEffect j r = ((a.purge j r).grantPasses r).setEntry j (.member r) := if_pos h

theorem App.readyEffect_of_other (h : (a.tbu.entry j).isJoining = false) : a.readyEffect j r = a :=
  if_neg (by simp [h])

end

/-! ### Reports at a LOADING replica (R129, R130) -/

section
variable {t : State} {p : StreamFrame} {before bounded : Tbu} (state : t.stc.station = .loading)
include state

theorem State.ownEntryReport_of_joining (entry : (t.tbu.entry t.number).isJoining = true) :
    t.ownEntryReport p before bounded = t := by
  simp only [State.ownEntryReport, state]
  split
  · rfl
  · next e => rw [e] at entry; cases entry
  · next e => rw [e] at entry; cases entry

/-- The commit of the own READY (R129). -/
theorem State.ownEntryReport_of_ready (entry : (t.tbu.entry t.number).isMember = true) (ready : p.kind = .ready)
    (own : p.sender = t.number) : t.ownEntryReport p before bounded = t.joinComplete p.rotation := by
  simp only [State.ownEntryReport, state]
  split
  · next e => rw [e] at entry; cases entry
  · rw [if_pos (by simp [ready, own])]
  · next e => rw [e] at entry; cases entry

/-- An own entry no longer JOINING, the commit of the own READY apart (R130). -/
theorem State.ownEntryReport_of_removed (entry : (t.tbu.entry t.number).isJoining = false)
    (other : (t.tbu.entry t.number).isMember = true → p.kind ≠ .ready ∨ p.sender ≠ t.number) :
    t.ownEntryReport p before bounded = t.joinFail .removed p.rotation := by
  simp only [State.ownEntryReport, state]
  split
  · next e => rw [e] at entry; cases entry
  · next e =>
    rw [if_neg]
    have := other (by rw [e]; rfl)
    simp only [Bool.and_eq_true, decide_eq_true_eq]
    tauto
  · rfl

end

/-! ### Items handed to the replica (R67, R85, R128) -/

/-- XFU's step at the end of a replayed entry (R128). -/
theorem State.endReplay_eq (t : State) : t.endReplay = t.setXfu (replayedXfu t.xfu) := by
  rw [State.endReplay]
  by_cases h : t.xfu.phase = .replaying ∧ t.xfu.catchup = []
  · rw [if_pos h]
    exact congrArg t.setXfu (by rw [replayedXfu, if_pos h])
  · rw [if_neg h]
    refine State.ext_blocks rfl rfl rfl rfl rfl rfl ?_ rfl rfl rfl rfl rfl
    show t.xfu = replayedXfu t.xfu
    rw [replayedXfu, if_neg h]

/-- The oldest entry of the catch-up queue, resolved (R128). -/
theorem exec_replayEntry {s : State} {e : CatchEntry} {rest : List CatchEntry} (released : s.pins.resetLow = false)
    (state : s.stc.station = .loading) (phase : s.xfu.phase = .replaying) (queued : s.xfu.catchup = e :: rest) :
    exec .replayEntry s = .next ((({ s with xfu := { s.xfu with catchup := rest } } : State).resolveEntry e).endReplay) := by
  refine (congrArg Host.Outcome.next (State.unlessHeld_released _ released)).trans (congrArg Host.Outcome.next ?_)
  rw [if_pos ⟨state, phase⟩, State.replayNext, queued]
  rfl

/-- A frame heard in CONFIRMING is resolved, and then taken by XFU (R67, R105). -/
theorem exec_delivery_confirming {s : State} {g : StreamFrame} (hd : DeliversStream s g) (state : s.stc.station = .loading)
    (phase : s.xfu.phase = .confirming) : exec .itemDelivery s
      = .next (((takenFrame s g).resolve g (decide (g.sender = s.number))).xfuItem (.stream g)
        (decide (g.sender = s.number)) s.ownSent) := by
  refine (execItemDelivery_stream hd).trans (congrArg Host.Outcome.next ?_)
  have heard : (s.adopted g).cmuItem (.stream g) (decide (g.sender = s.number)) s.ownSent s.trk.rotation
      = (takenFrame s g).resolve g (decide (g.sender = s.number)) := by
    simp only [State.cmuItem, State.adopted_stc, state, State.adopted_xfu, adoptedXfu_phase, phase, State.replicaItem,
      if_neg hd.1]
    rfl
  rw [heard]

section
variable {s v t : State} {i : Instr} {g : StreamFrame} {own : Bool} (hands : Hands s v i g own) (resolved : v.resolve g own = t)
include hands

theorem Hands.state : v.stc.station = .loading := by
  obtain ⟨state, ⟨-, -, -, rest, -, rfl⟩ | ⟨-, -, -, -, rfl⟩⟩ := hands <;> exact state

theorem Hands.phase : v.xfu.phase = .replaying ∨ v.xfu.phase = .confirming := by
  obtain ⟨-, ⟨-, -, phase, rest, -, rfl⟩ | ⟨-, phase, -, -, rfl⟩⟩ := hands
  · exact .inl phase
  · exact .inr phase

theorem Hands.isReplica : v.isReplica = true := by
  rw [State.isReplica, hands.state]
  rcases hands.phase with e | e <;> simp [e]

include resolved

/-- The attempt goes on: the entry is resolved, and replay ends when none is left (R128). -/
theorem exec_hands_going (phase : t.xfu.phase = v.xfu.phase) : exec i s = .next (t.setXfu (replayedXfu t.xfu)) := by
  obtain ⟨state, ⟨rfl, released, replays, rest, queued, rfl⟩ | ⟨rfl, confirms, hd, rfl, rfl⟩⟩ := hands
  · rw [exec_replayEntry released state replays queued, ← State.endReplay_eq, ← resolved]
    rfl
  · have still : t.xfu.phase = .confirming := phase.trans confirms
    rw [exec_delivery_confirming hd state confirms, resolved, State.xfuItem, still]
    refine congrArg Host.Outcome.next (State.ext_blocks rfl rfl rfl rfl rfl rfl ?_ rfl rfl rfl rfl rfl)
    show t.xfu = replayedXfu t.xfu
    rw [replayedXfu, if_neg (by simp [still])]

/-- The attempt is over, and no image is held: nothing is left for XFU to do. -/
theorem exec_hands_over (phase : t.xfu.phase = .idle) (noImage : t.xfu.image = none) : exec i s = .next t := by
  obtain ⟨state, ⟨rfl, released, replays, rest, queued, rfl⟩ | ⟨rfl, confirms, hd, rfl, rfl⟩⟩ := hands
  · have still : t.endReplay = t := if_neg (by simp [phase])
    rw [exec_replayEntry released state replays queued]
    exact congrArg Host.Outcome.next ((congrArg State.endReplay resolved).trans still)
  · rw [exec_delivery_confirming hd state confirms, resolved, State.xfuItem, phase, Xfu.readRequest, noImage]
    rfl

end

/-- A fault handed to the replica of a LOADING station is a hole (R69, R85). -/
theorem exec_hands_hole {s v : State} {i : Instr} {own : Option OwnItem} (hands : HandsHole s v i own) :
    exec i s = .next { v with cmu := holedCmu v.cmu own, xfu := replayedXfu v.xfu } := by
  obtain ⟨state, ⟨rfl, released, replays, rest, queued, rfl⟩ | ⟨rfl, confirms, sent, h, hd, rfl, rfl⟩⟩ := hands
  · rw [exec_replayEntry released state replays queued, State.endReplay_eq, ← Cmu.hole_eq]
    rfl
  · refine (execItemDelivery_faulted hd (State.faultEndsTurn_of (.inr (.inl state)))).trans
      (congrArg Host.Outcome.next ?_)
    have phase : (faulted s h).xfu.phase = .confirming := (faultXfu_phase s).trans confirms
    have heard : (faulted s h).cmuItem h sent.isSome (sent.map sentItem) s.trk.rotation
        = (faulted s h).setCmu (holedCmu s.cmu (sent.map sentItem)) := by
      simp only [State.cmuItem, faulted_stc, state, phase, State.replicaItem_of_fault hd.1]
      rfl
    have taken : ((faulted s h).setCmu (holedCmu s.cmu (sent.map sentItem))).xfuItem h sent.isSome (sent.map sentItem)
        = (faulted s h).setCmu (holedCmu s.cmu (sent.map sentItem)) := by
      have still : ((faulted s h).setCmu (holedCmu s.cmu (sent.map sentItem))).xfu.phase = .confirming := phase
      simp only [State.xfuItem, still]
    have replayed : replayedXfu (faulted s h).xfu = (faulted s h).xfu := by rw [replayedXfu, if_neg (by simp [phase])]
    rw [heard, taken, State.leaveLoopback_other _ _ _ (by simp [state]), replayed]
    rfl

/-! ### Resolutions at a LOADING replica (R70 to R74, R84, R85) -/

theorem Cmu.clean_cleanedBy (c : Cmu) (g : StreamFrame) (own : Bool) : c.clean g own = cleanedBy c g own := by
  by_cases h : own = true <;> by_cases bare : g.kind = .member ∧ g.ops = [] <;>
    simp_all [Cmu.clean, cleanedBy, StreamFrame.isBare, StreamFrame.id]

section
variable {t : State} (state : t.stc.station = .loading)
  (marks : ∀ m, t.cmu.ownMark = some m → m.kind ≠ .stream .found ∧ t.rqu.carrier ≠ some m.id)
include state marks

/-- In LOADING an own mark carries no requests, and its fate changes nothing (R79, R80). -/
theorem State.reportFate_of_loading (b : Bool) : t.reportFate b = t := by
  cases mark : t.cmu.ownMark with
  | none => exact State.reportFate_unmarked b mark
  | some m =>
    obtain ⟨notFound, other⟩ := marks m mark
    by_cases void : b = false ∨ m.hole = true
    · rw [State.reportFate_of_idle mark void other notFound, if_neg (by simp [state])]
      rfl
    · obtain ⟨rfl, pending⟩ : b = true ∧ m.hole = false := by simpa using void
      rw [State.reportFate_committed mark pending, Rqu.frameCommitted_of_other other]
      rfl

end

section
variable {s v : State} {i : Instr} {g p : StreamFrame} {own : Bool} (hands : Hands s v i g own)
include hands

/-- A resolution after which the attempt goes on: G is the new P (R75). -/
theorem exec_hands_resolved {t : State} (resolved : v.resolve g own = t.finishResolution g own)
    (replica : t.isReplica = true) (phase : t.xfu.phase = v.xfu.phase) :
    exec i s = .next { t with cmu := cleanedBy t.cmu g own, xfu := replayedXfu t.xfu } := by
  rw [State.finishResolution_of_replica replica, Cmu.clean_cleanedBy] at resolved
  exact exec_hands_going hands resolved phase

theorem exec_hands_denied (denies : Denies v.cmu g)
    (marks : ∀ m, v.cmu.ownMark = some m → m.kind ≠ .stream .found ∧ v.rqu.carrier ≠ some m.id) :
    exec i s = .next { v with cmu := cleanedBy v.cmu g own, xfu := replayedXfu v.xfu } := by
  refine exec_hands_resolved hands ?_ hands.isReplica rfl
  rw [State.resolve_of_denies denies, State.reportFate_of_loading hands.state marks]

variable (confirms : Confirms v.cmu p g)
include confirms

/-- P is committed, and the own entry is still JOINING. -/
theorem exec_hands_committed (marks : ∀ m, v.cmu.ownMark = some m → m.kind ≠ .stream .found ∧ v.rqu.carrier ≠ some m.id)
    (plain : p.kind ≠ .member ∨ p.sender ≠ v.number)
    (entry : ((application v p).tbu.entry v.number).isJoining = true) :
    exec i s = .next { v with
      cmu := { cleanedBy v.cmu g own with
        last := some ⟨⟨p.rotation, p.sender⟩, p.check⟩, check := crc (bytes32 v.cmu.check ++ bytes32 p.check) }
      tbu := (application v p).tbu
      ntq := (recordsFor v (application v p).out).foldl Ntq.offer v.ntq
      xfu := replayedXfu (donorAfter v p v.xfu) } := by
  obtain ⟨rqu, ntq⟩ := withCommit_of_plain (v := v) (p := p) (by tauto)
  have state : (v.withCommit p).stc.station = .loading := hands.state
  have phase : (v.withCommit p).xfu.phase = v.xfu.phase := donorAfter_phase v p v.xfu
  have report : (v.withCommit p).ownEntryReport p v.tbu (boundedTable v p).tbu = v.withCommit p :=
    State.ownEntryReport_of_joining state entry
  have replica : (v.withCommit p).isReplica = true := by
    rw [State.isReplica, state, phase]
    rcases hands.phase with e | e <;> simp [e]
  have fate : (v.withCommit p).reportFate true = v.withCommit p :=
    State.reportFate_of_loading state (by rw [rqu]; exact marks) true
  have resolved := State.resolve_of_confirms_replica (own := own) confirms report replica
  rw [fate] at resolved
  rw [exec_hands_resolved hands resolved replica phase]
  exact congrArg Host.Outcome.next (State.ext_blocks rfl rfl rfl rfl rqu ntq rfl rfl rfl rfl rfl rfl)

/-- P is committed, and the own entry is no longer JOINING: the attempt fails (R130). -/
theorem exec_hands_removed (plain : p.kind ≠ .member ∨ p.sender ≠ v.number)
    (entry : ((application v p).tbu.entry v.number).isJoining = false)
    (other : ((application v p).tbu.entry v.number).isMember = true → p.kind ≠ .ready ∨ p.sender ≠ v.number)
    (noImage : (donorAfter v p v.xfu).image = none) :
    exec i s = .next (joinFailed { v with
      ntq := (recordsFor v (application v p).out).foldl Ntq.offer v.ntq
      xfu := donorAfter v p v.xfu } .removed p.rotation) := by
  obtain ⟨rqu, ntq⟩ := withCommit_of_plain (v := v) (p := p) (by tauto)
  have state : (v.withCommit p).stc.station = .loading := hands.state
  have report : (v.withCommit p).ownEntryReport p v.tbu (boundedTable v p).tbu = joinFailed (v.withCommit p) .removed p.rotation :=
    (State.ownEntryReport_of_removed state entry other).trans (State.joinFail_eq _ _ _)
  have resolved := State.resolve_of_confirms_left (own := own) confirms report (State.isReplica_of_listening rfl)
  rw [exec_hands_over hands resolved rfl noImage]
  exact congrArg Host.Outcome.next (State.ext_blocks rfl rfl rfl rfl rqu (congrArg (Ntq.offer · _) ntq) rfl rfl rfl rfl rfl rfl)

end

/-- Settles O47: each resolution at a replica that is LOADING, and the concrete entries by the general clauses. -/
theorem replayResolvesTheOldestEntry : Obligations.ReplayResolvesTheOldestEntry := by
  refine ⟨fun s v i own hands => exec_hands_hole hands, fun s v i g own hands notFound =>
    ⟨fun denies marks => exec_hands_denied hands denies marks, fun p confirms marks plain =>
      ⟨fun entry => exec_hands_committed hands confirms marks plain entry,
        fun entry other noImage => exec_hands_removed hands confirms plain entry other noImage⟩,
      fun discordant counted => ?_, fun diverged noImage => ?_⟩,
    fun s rest released state phase => ⟨fun queued => ?_, fun g queued denies unmarked => ?_⟩⟩
  · have resolved : v.resolve g own = v.setCmu { v.cmu with discordance := 1, discordSender := some g.sender } := by
      rw [State.resolve_of_discordant discordant, State.discord_of_counted counted]
    rw [exec_hands_going hands resolved rfl]
    rfl
  · have cause : ∃ cause, v.resolve g own = v.diverge g cause := by
      rcases diverged with ⟨unknown, holes⟩ | ⟨discordant, one, second⟩
      · exact ⟨.missed, State.resolve_of_divergence (.inl ⟨rfl, unknown, holes⟩)⟩
      · exact ⟨.discordant, State.resolve_of_divergence (.inr ⟨rfl, discordant, one, second⟩)⟩
    obtain ⟨cause, resolved⟩ := cause
    rw [State.diverge, if_pos hands.state, State.joinFail_eq] at resolved
    exact exec_hands_over hands resolved rfl noImage
  · rw [exec_hands_hole ⟨state, .inl ⟨rfl, released, phase, rest, queued, rfl⟩⟩, holedCmu_none]
    refine congrArg Host.Outcome.next (State.ext_blocks rfl rfl rfl rfl rfl rfl ?_ rfl rfl rfl rfl rfl)
    simp [replayedXfu, phase]
  · have hands : Hands s { s with xfu := { s.xfu with catchup := rest } } .replayEntry g false :=
      ⟨state, .inl ⟨rfl, released, phase, rest, queued, rfl⟩⟩
    rw [exec_hands_denied hands denies (by simp [unmarked])]
    refine congrArg Host.Outcome.next (State.ext_blocks rfl rfl ?_ rfl rfl rfl ?_ rfl rfl rfl rfl rfl)
    · simp [cleanedBy, unmarked]
    · simp [replayedXfu, phase]

/-! ### The commit of the own READY (R55, R129) -/

/-- The application of a JOINING sender's READY makes its entry MEMBER (R55). -/
theorem application_of_ready {s : State} {p : StreamFrame} (ready : p.kind = .ready) (own : p.sender = s.number)
    (entry : ((boundedTable s p).tbu.entry s.number).isJoining = true) :
    (application s p).tbu.entry s.number = .member p.rotation := by
  have small : s.number < 16 := Tbu.entry_lt (t := (boundedTable s p).tbu) fun vacant => by rw [vacant] at entry; cases entry
  rw [application, frameEffect, ready]
  simp only
  rw [own, App.readyEffect_of_joining _ _ entry]
  exact (Tbu.entry_setEntry _ _ _ small).trans (if_pos rfl)

/-- The station whose own READY is committed: the joiner side is cleared, and it is MEMBER (R129). -/
theorem exec_delivery_ready {s : State} {p g : StreamFrame} (hd : DeliversStream s g) (state : s.stc.station = .loading)
    (phase : s.xfu.phase = .confirming) (confirms : Confirms s.cmu p g) (ready : p.kind = .ready)
    (own : p.sender = s.number) (mark : s.cmu.ownMark = some ⟨⟨p.rotation, p.sender⟩, .stream .ready, false⟩)
    (idle : s.rqu.carrier = none) (entry : ((boundedTable s p).tbu.entry s.number).isJoining = true) :
    exec .itemDelivery s = .next { s with
      lif := deliveredLif s.lif
      trk := adoptedTrk s g
      cmu := committedBy s p g
      tbu := (application s p).tbu
      xfu := servedXfu (donorAfter s p (adoptedXfu s g)).clearJoiner g
      stc := { s.stc with station := .member }
      ntq := (recordsFor s (application s p).out ++ [stateNote .member .member none p.rotation]).foldl Ntq.offer s.ntq } := by
  have state' : ((takenFrame s g).withCommit p).stc.station = .loading := state
  have member : (((takenFrame s g).withCommit p).tbu.entry s.number).isMember = true := by
    rw [show ((takenFrame s g).withCommit p).tbu = (application s p).tbu from rfl, application_of_ready ready own entry]
    rfl
  obtain ⟨rqu, ntq⟩ := withCommit_of_plain (v := takenFrame s g) (p := p) (.inr (.inl (by simp [ready])))
  generalize joined : ((takenFrame s g).withCommit p).joinComplete p.rotation = t
  have report : ((takenFrame s g).withCommit p).ownEntryReport p (takenFrame s g).tbu (boundedTable (takenFrame s g) p).tbu
      = t := joined ▸ State.ownEntryReport_of_ready state' member ready own
  have now : t.stc.station = .member := by rw [← joined]; rfl
  have fate : t.reportFate true = t := by
    have carrier : t.rqu.carrier ≠ some ⟨p.rotation, p.sender⟩ := by
      rw [show t.rqu = s.rqu by rw [← joined]; exact rqu, idle]
      nofun
    rw [State.reportFate_committed (s := t) (m := ⟨⟨p.rotation, p.sender⟩, .stream .ready, false⟩)
      (by rw [← joined]; exact mark) rfl, Rqu.frameCommitted_of_other carrier]
    rfl
  have replica := State.isReplica_of_member now
  have resolved := State.resolve_of_confirms_replica (v := takenFrame s g) (own := decide (g.sender = s.number)) confirms
    report replica
  have cmu : t.cmu = { foldedCmu s.cmu p with lastHeard := some ⟨⟨g.rotation, g.sender⟩, g.check⟩ } := by rw [← joined]; rfl
  rw [fate, State.finishResolution_of_replica replica, cmu, Cmu.clean_eq] at resolved
  have gone : t.xfu.phase = .idle := by rw [← joined]; rfl
  rw [exec_delivery_confirming hd state phase, resolved, State.xfuItem,
    show (t.setCmu (resolvedBy s (foldedCmu s.cmu p) g)).xfu.phase = .idle from gone]
  refine congrArg Host.Outcome.next ?_
  rw [Xfu.readRequest_eq, ← joined]
  exact State.ext_blocks rfl rfl rfl rfl rqu ((congrArg (Ntq.offer · _) ntq).trans (offers_concat _ _ _)) rfl rfl rfl rfl
    rfl rfl

/-- Settles O46: in the table a purge, the passes of what it touched, and the entry; at the station the report of the own
entry. -/
theorem committedReadyMakesTheJoinerAMember : Obligations.CommittedReadyMakesTheJoinerAMember := by
  refine ⟨fun n f a ready => by rw [frameEffect, ready], fun a j r ordered fresh =>
    ⟨fun other => App.readyEffect_of_other j r other, fun joining => ?_⟩,
    fun s p g hd state phase confirms ready own mark idle entry =>
      ⟨_, exec_delivery_ready hd state phase confirms ready own mark idle entry, rfl,
        application_of_ready ready own entry⟩⟩
  rw [App.readyEffect_of_joining j r joining]
  exact ⟨rfl, rfl, App.purge_passes_records j r ordered fresh, App.purge_passes_out j r ordered fresh,
    App.purge_passes_gone j r ordered fresh⟩

end Sys2Proof.Machine
end

section
/-! PROOFS. The invariant of a run cut by blocks, so that a step answers only for the blocks it changes; and the station
right after reset (R17, R49, R86, R102, R119). -/

namespace Sys2Proof.Machine

/-! ### The invariant by blocks -/

/-- The station states and phases in which CMU holds a history (R67, R86). -/
def Resolves (st : StationState) (phase : JoinPhase) : Prop :=
  st = .member ∨ st = .leaving ∨ phase = .replaying ∨ phase = .confirming

/-- What is neither table nor stream: the queue, the tracker, the line, the configuration. -/
structure CoreSound (q : Ntq) (t : Trk) (l : Lif) (c : Stc) : Prop where
  queue : QueueSound q
  tracker : TrackerSound t c.config.n.toNat
  item : ItemSound l
  off : c.station = .halted ↔ l.receiver = .off
  still : c.station = .halted → l.transmitter = .idle ∧ t = Trk.cleared
  config : c.station ≠ .halted → (2 ≤ c.config.n.toNat ∧ c.config.n.toNat ≤ 16)
    ∧ (1 ≤ c.config.m.toNat ∧ c.config.m.toNat ≤ 4) ∧ c.strap.toNat < c.config.n.toNat
  leave : LeaveSound c
  sent : ∀ f, l.sent = some (.stream f) → f.kind = .found → c.station = .founding

/-- The Transfer Unit at a station; `w` says that the head waiters of the records it holds are not grantable. -/
structure AttemptSound (w : Prop) (x : Xfu) (c : Stc) : Prop where
  bounds : TransferSound x
  awaiting : c.station = .joining ↔ x.phase = .awaiting
  loading : c.station = .loading ↔ (x.phase = .gathering ∨ x.phase = .replaying ∨ x.phase = .confirming)
  donor : c.station ≠ .member → c.station ≠ .leaving → x.image = none ∧ x.joinerWanted = 0 ∧ x.plan = none
  joiner : x.phase = .idle → x.clearJoiner = x
  queued : ∀ e ∈ x.catchup, e.noFound ∧ ∀ g own, e = .frame g own → g.wf c.config.n.toNat = true
  slots : ∀ i it, x.slot i = some it → it.wf c.config.n.toNat i = true ∧ (w → ∀ r, it = .record r → headWaits r)

/-- The table at a station (R17, R49, R127). -/
structure TableHeld (w : Prop) (t : Tbu) (c : Stc) (phase : JoinPhase) : Prop where
  kept : TableKept w [] t
  roster : OneJoiner t
  entry : phase = .replaying ∨ phase = .confirming → (t.entry c.strap.toNat).isJoining = true
  cleared : ¬ Resolves c.station phase → t = Tbu.cleared

/-- The Commit Unit's counts, and P in range. -/
structure CommitHeld (u : Cmu) (n : Nat) : Prop where
  counts : CommitSound u
  waiting : ∀ p, u.waiting = some p → p.wf n = true

/-- The ties between the stream state and the station state (R83, R86, R145). -/
structure StreamHeld (u : Cmu) (st : StationState) (phase : JoinPhase) : Prop where
  cleared : ¬ Resolves st phase → u = u.clearStream
  mark : ∀ m, u.ownMark = some m → m.kind = .stream .found → st = .member ∨ st = .leaving

/-- The invariant without the ties of the stream state, which hold again at the end of a resolution. -/
structure StationMid (w : Prop) (s : State) : Prop where
  core : CoreSound s.ntq s.trk s.lif s.stc
  attempt : AttemptSound w s.xfu s.stc
  table : TableHeld w s.tbu s.stc s.xfu.phase
  commit : CommitHeld s.cmu s.stc.config.n.toNat

/-- The invariant. -/
structure StationHeld (w : Prop) (s : State) : Prop where
  mid : StationMid w s
  stream : StreamHeld s.cmu s.stc.station s.xfu.phase

theorem isReplica_iff {s : State} (h : s.stc.station = .loading ↔ (s.xfu.phase = .gathering ∨ s.xfu.phase = .replaying
    ∨ s.xfu.phase = .confirming)) : s.isReplica = true ↔ Resolves s.stc.station s.xfu.phase := by
  unfold State.isReplica Resolves
  cases e : s.stc.station <;> cases e' : s.xfu.phase <;> simp_all

section
variable {w : Prop} {s : State}

/-- The invariant by blocks is that of O59. -/
theorem StationHeld.of_sound (h : StationSound s) (waits : w → HeadsWait s) : StationHeld w s := by
  have replica := isReplica_iff h.phase.2
  have history : ¬ Resolves s.stc.station s.xfu.phase → s.cmu = s.cmu.clearStream ∧ s.tbu = Tbu.cleared := fun not =>
    h.history (by rw [← Bool.not_eq_true, replica]; exact not)
  refine ⟨⟨⟨h.queue, h.tracker, h.item, h.halted.1, h.halted.2, h.config, h.leave, h.found.1⟩,
    ⟨h.transfer, h.phase.1, h.phase.2, h.donor, h.joiner, fun e he => ⟨h.found.2.2 e he, fun g own eq =>
      h.frames.2.1 g own (eq ▸ he)⟩, fun i it hi => ⟨h.frames.2.2 i it hi, fun hw r eq => (waits hw).2 i r (eq ▸ hi)⟩⟩,
    ⟨(tableKept_iff w s.tbu).mpr ⟨h.table, fun hw => (waits hw).1⟩, h.roster, fun phase => ?_, fun not => (history not).2⟩,
    ⟨h.commit, h.frames.1⟩⟩, ⟨fun not => (history not).1, h.found.2.1⟩⟩
  exact h.entry (h.phase.2.mpr (.inr phase)) phase

theorem StationHeld.sound (h : StationHeld w s) : StationSound s := by
  obtain ⟨⟨core, attempt, table, commit⟩, stream⟩ := h
  have replica := isReplica_iff attempt.loading
  refine { queue := core.queue, tracker := core.tracker, commit := commit.counts, transfer := attempt.bounds,
           leave := core.leave, item := core.item, phase := ⟨attempt.awaiting, attempt.loading⟩,
           history := fun not => ?_, donor := attempt.donor, entry := fun _ => table.entry,
           halted := ⟨core.off, core.still⟩, found := ⟨core.sent, stream.mark, fun e he => (attempt.queued e he).1⟩,
           joiner := attempt.joiner, config := core.config,
           frames := ⟨commit.waiting, fun g own he => (attempt.queued _ he).2 g own rfl, fun i it hi => (attempt.slots i it hi).1⟩,
           table := ((tableKept_iff w s.tbu).mp table.kept).1, roster := table.roster }
  have not : ¬ Resolves s.stc.station s.xfu.phase := fun yes => by rw [replica.mpr yes] at not; cases not
  exact ⟨stream.cleared not, table.cleared not⟩

theorem StationHeld.waits (h : StationHeld w s) (hw : w) : HeadsWait s :=
  ⟨((tableKept_iff w s.tbu).mp h.mid.table.kept).2 hw, fun i r hi => (h.mid.attempt.slots i _ hi).2 hw r rfl⟩

end

/-! ### The Notification Queue (R175, R176) -/

theorem QueueSound.offer {q : Ntq} (h : QueueSound q) (n : Note) : QueueSound (q.offer n) := by
  obtain ⟨places, lost, shows⟩ := h
  rw [Ntq.offer]
  split
  · next room => exact ⟨by simpa using room, lost, shows⟩
  · exact ⟨places, Nat.min_le_right _ _, fun _ => rfl⟩

theorem QueueSound.offers (ns : List Note) : ∀ {q : Ntq}, QueueSound q → QueueSound (ns.foldl Ntq.offer q) := by
  induction ns with
  | nil => exact id
  | cons n ns ih => exact fun h => ih (h.offer n)

/-! ### The core -/

section
variable {q : Ntq} {t : Trk} {l : Lif} {c : Stc} (h : CoreSound q t l c)
include h

theorem CoreSound.withQueue {q' : Ntq} (queue : QueueSound q') : CoreSound q' t l c := { h with queue := queue }

theorem CoreSound.withTrk {t' : Trk} (notHalted : c.station ≠ .halted) (tracker : TrackerSound t' c.config.n.toNat) :
    CoreSound q t' l c :=
  { h with tracker := tracker, still := fun e => absurd e notHalted }

/-- LIF changes outside HALTED: the receiver stays on, and no FOUND of the own is sent outside FOUNDING. -/
theorem CoreSound.withLif {l' : Lif} (notHalted : c.station ≠ .halted) (item : ItemSound l') (on : l'.receiver ≠ .off)
    (sent : ∀ f, l'.sent = some (.stream f) → f.kind = .found → c.station = .founding) : CoreSound q t l' c :=
  { h with item := item, off := ⟨fun e => absurd e notHalted, fun e => absurd e on⟩, still := fun e => absurd e notHalted,
           sent := sent }

/-- Another state than HALTED is entered, with no FOUND of the own under way. -/
theorem CoreSound.move {st : StationState} {lv : LeavePhase} (notHalted : c.station ≠ .halted) (into : st ≠ .halted)
    (free : c.station = .founding → l.sent = none) (leave : st ≠ .leaving → lv = .idle) :
    CoreSound q t l { c with station := st, leave := lv } :=
  { h with
    off := ⟨fun e => absurd e into, fun e => absurd (h.off.mpr e) notHalted⟩
    still := fun e => absurd e into
    config := fun _ => h.config notHalted
    leave := leave
    sent := fun f e found => by rw [free (h.sent f e found)] at e; cases e }

/-- The leave phase changes in LEAVING. -/
theorem CoreSound.withLeave {lv : LeavePhase} (state : c.station = .leaving) : CoreSound q t l { c with leave := lv } :=
  { h with leave := fun not => absurd state not }

end

theorem TrackerSound.enterListening {t : Trk} {n : Nat} (h : TrackerSound t n) : TrackerSound t.enterListening n := by
  refine ⟨?_, ?_⟩
  · rw [Trk.enterListening_lone]; exact h.1
  · rw [Trk.enterListening_skipTimer]; exact h.2

/-! ### The Transfer Unit -/

section
variable {w : Prop} {x : Xfu} {c : Stc} (h : AttemptSound w x c)
include h

theorem AttemptSound.idle (notJoining : c.station ≠ .joining) (notLoading : c.station ≠ .loading) : x.phase = .idle := by
  cases e : x.phase with
  | idle => rfl
  | awaiting => exact absurd (h.awaiting.mpr e) notJoining
  | gathering => exact absurd (h.loading.mpr (.inl e)) notLoading
  | replaying => exact absurd (h.loading.mpr (.inr (.inl e))) notLoading
  | confirming => exact absurd (h.loading.mpr (.inr (.inr e))) notLoading

/-- Rotations counted, and a plan that ends (R90, R122). -/
theorem AttemptSound.counted {k : Nat} {p : Option ServePlan} (bound : k ≤ 3) (same : x.phase = .idle → k = x.stall)
    (plan : p = x.plan ∨ p = none) : AttemptSound w { x with stall := k, plan := p } c :=
  { h with
    bounds := ⟨bound, h.bounds.2⟩
    donor := fun notMember notLeaving => by
      obtain ⟨image, wanted, none⟩ := h.donor notMember notLeaving
      exact ⟨image, wanted, by rcases plan with e | e <;> simp [e, none]⟩
    joiner := fun idle => by
      obtain rfl := same idle
      exact congrArg (fun y : Xfu => { y with plan := p }) (h.joiner idle) }

/-- The donor side changes at a station that may be a donor. -/
theorem AttemptSound.serving {i : Option Image} {k : Nat} {p : Option ServePlan}
    (state : c.station = .member ∨ c.station = .leaving) :
    AttemptSound w { x with image := i, joinerWanted := k, plan := p } c :=
  { h with
    donor := fun notMember notLeaving => state.elim (absurd · notMember) (absurd · notLeaving)
    joiner := fun idle => congrArg (fun y : Xfu => { y with image := i, joinerWanted := k, plan := p }) (h.joiner idle) }

/-- The station changes its state and stays attached to no attempt. -/
theorem AttemptSound.release_of_other (notMember : c.station ≠ .member) (notLeaving : c.station ≠ .leaving) :
    x.release = x := by
  obtain ⟨image, wanted, plan⟩ := h.donor notMember notLeaving
  rw [Xfu.release, ← image, ← plan, ← wanted]

end

/-! ### The Commit Unit -/

theorem StreamHeld.clear (u : Cmu) (st : StationState) (phase : JoinPhase) : StreamHeld u.clearStream st phase :=
  ⟨fun _ => rfl, nofun⟩

section
variable {u : Cmu} {n : Nat} (h : CommitHeld u n)

theorem CommitHeld.clear (u : Cmu) (n : Nat) : CommitHeld u.clearStream n :=
  ⟨⟨Nat.zero_le _, Nat.zero_le _, by simp [Cmu.clearStream, Cmu.cleared]⟩, nofun⟩

include h

theorem CommitHeld.hole (own : Option OwnItem) : CommitHeld (u.hole own) n :=
  ⟨⟨Nat.min_le_right _ _, h.counts.2⟩, h.waiting⟩

theorem CommitHeld.folded (p : StreamFrame) : CommitHeld (foldedCmu u p) n := ⟨h.counts, nofun⟩

omit h in
/-- A clean resolution: the counts are 0, and P is in range. -/
theorem CommitHeld.clean {g : StreamFrame} (u : Cmu) (own : Bool) (wf : g.wf n = true) : CommitHeld (u.clean g own) n :=
  ⟨⟨Nat.zero_le _, Nat.zero_le _, by simp [Cmu.clean]⟩, fun p e => by cases e; exact wf⟩

theorem CommitHeld.discordant (k : Nat) : CommitHeld { u with discordance := 1, discordSender := some k } n :=
  ⟨⟨h.counts.1, Nat.le_refl _, by simp⟩, h.waiting⟩

end

/-! ### A station without an attempt and without a history -/

section
variable {w : Prop} {s : State}

theorem TableHeld.ofCleared {c : Stc} {phase : JoinPhase} (idle : phase = .idle) : TableHeld w Tbu.cleared c phase :=
  ⟨Tbu.cleared_kept w, OneJoiner.cleared, fun e => by simp [idle] at e, fun _ => rfl⟩

theorem AttemptSound.ofCleared {x : Xfu} {c : Stc} (joiner : x.clearJoiner = x) (donor : c.station ≠ .member →
    c.station ≠ .leaving → x.release = x) (notJoining : c.station ≠ .joining) (notLoading : c.station ≠ .loading) :
    AttemptSound w x c := by
  have idle : x.phase = .idle := by rw [← joiner]; rfl
  have stall : x.stall = 0 := by rw [← joiner]; rfl
  have catchup : x.catchup = [] := by rw [← joiner]; rfl
  have empty : ∀ i, x.slot i = none := fun i => by
    rw [← joiner]
    show (Vector.replicate 65 (none : Option SnapItem))[i]?.getD none = none
    rw [Vector.getElem?_replicate]
    split <;> rfl
  refine ⟨⟨by simp [stall], by simp [catchup]⟩, ⟨fun e => absurd e notJoining, fun e => by simp [idle] at e⟩,
    ⟨fun e => absurd e notLoading, fun e => by simp [idle] at e⟩, fun notMember notLeaving => ?_, fun _ => joiner,
    by simp [catchup], fun i it e => by rw [empty] at e; cases e⟩
  rw [← donor notMember notLeaving]
  exact ⟨rfl, rfl, rfl⟩

/-- A station attached to no group: no attempt, no image, no history. -/
theorem StationMid.unattached (core : CoreSound s.ntq s.trk s.lif s.stc) (commit : CommitHeld s.cmu s.stc.config.n.toNat)
    (notJoining : s.stc.station ≠ .joining) (notLoading : s.stc.station ≠ .loading) (joiner : s.xfu.clearJoiner = s.xfu)
    (donor : s.xfu.release = s.xfu) (table : s.tbu = Tbu.cleared) : StationMid w s := by
  have idle : s.xfu.phase = .idle := by rw [← joiner]; rfl
  exact ⟨core, AttemptSound.ofCleared joiner (fun _ _ => donor) notJoining notLoading, table ▸ TableHeld.ofCleared idle, commit⟩

/-- A station in HALTED: LIF off, the tracker cleared, no history (R104, R118, R154, R155). -/
theorem StationHeld.ofHalted (state : s.stc.station = .halted) (leave : s.stc.leave = .idle) (queue : QueueSound s.ntq)
    (off : s.lif.receiver = .off) (idle : s.lif.transmitter = .idle) (item : ItemSound s.lif)
    (sent : ∀ f, s.lif.sent = some (.stream f) → f.kind ≠ .found) (trk : s.trk = Trk.cleared) (cmu : s.cmu = s.cmu.clearStream)
    (tbu : s.tbu = Tbu.cleared) (joiner : s.xfu.clearJoiner = s.xfu) (donor : s.xfu.release = s.xfu) : StationHeld w s := by
  refine ⟨StationMid.unattached ⟨queue, ?_, item, ⟨fun _ => off, fun _ => state⟩, fun _ => ⟨idle, trk⟩, fun e => absurd state e,
    fun _ => leave, fun f e found => absurd found (sent f e)⟩ ?_ (by simp [state]) (by simp [state]) joiner donor tbu, ?_⟩
  · rw [trk]; exact ⟨Nat.zero_le _, nofun⟩
  · rw [cmu]; exact CommitHeld.clear s.cmu _
  · rw [cmu]; exact StreamHeld.clear s.cmu _ _

end

/-- Settles O60: every block is cleared. -/
theorem resetStationIsSound : Obligations.ResetStationIsSound :=
  (StationHeld.ofHalted (w := False) rfl rfl ⟨Nat.zero_le _, Nat.zero_le _, fun e => absurd rfl e⟩ rfl rfl (Nat.zero_le _)
    (fun _ e => by cases e) rfl rfl rfl rfl rfl).sound

end Sys2Proof.Machine
end

section
/-! PROOFS. The tracker's part of a delivery keeps the invariant (R88 to R91, R96, R99 to R101, R122). -/

namespace Sys2Proof.Machine

/-! ### The tracker (R88 to R91, R122) -/

/-- TRK's part of a step: the tracker, the stall count and the serving plan alone. -/
def Tracked (s t : State) : Prop :=
  ∃ trk k p, t = (s.setTrk trk).setXfu { s.xfu with stall := k, plan := p }
    ∧ (TrackerSound s.trk s.groupSize → TrackerSound trk s.groupSize) ∧ (s.xfu.stall ≤ 3 → k ≤ 3)
    ∧ (s.xfu.phase = .idle → k = s.xfu.stall) ∧ (p = s.xfu.plan ∨ p = none)

theorem Tracked.stc {s t : State} (h : Tracked s t) : t.stc = s.stc := by
  obtain ⟨trk, k, p, rfl, -⟩ := h
  rfl

theorem passedTrk_sound (s : State) {t : Trk} (h : Nat) (sound : TrackerSound t s.groupSize) :
    TrackerSound (passedTrk s t h) s.groupSize :=
  ⟨Nat.min_le_right _ _, sound.2⟩

theorem adoptedFrom_sound (s : State) (h : Nat) (r : Word32) (n : Nat) (more passes : Bool)
    (sound : TrackerSound s.trk s.groupSize) : TrackerSound (adoptedFrom s h r n more passes) s.groupSize := by
  have taken : TrackerSound { s.trk with
      holder := some h, rotation := r, aligned := true, reference := s.lif.item.endAt, skipTimer := some 16
      moreFollows := more, transfers := n, window := none
      lone := if h = s.number then s.trk.lone else 0
      phase := if h = s.number then s.trk.phase else .idle } s.groupSize :=
    ⟨by dsimp only; split <;> simp [sound.1], fun k e => by cases e; decide⟩
  unfold adoptedFrom
  cases passes
  · exact taken
  · exact passedTrk_sound s h taken

theorem stallAfter_le (s : State) (h : Nat) (r : Word32) (b : Bool) (le : s.xfu.stall ≤ 3) : stallAfter s h r b ≤ 3 := by
  unfold stallAfter
  split
  · exact Nat.min_le_right _ _
  · exact le

/-- The tracker after an item's end (R88). -/
theorem itemEnded_sound {t : Trk} {n : Nat} (e : Option Nat) (sound : TrackerSound t n) : TrackerSound (t.itemEnded e) n :=
  ⟨sound.1, fun k e => by cases e; decide⟩

section
variable {s : State}

theorem Tracked.adopts (h : Nat) (r : Word32) (n : Nat) (more passes : Bool) {p : Option ServePlan}
    (plan : p = s.xfu.plan ∨ p = none) : Tracked s ((s.setTrk (adoptedFrom s h r n more passes)).setXfu { s.xfu with
      stall := stallAfter s h r passes, plan := p }) :=
  ⟨_, _, _, rfl, adoptedFrom_sound s h r n more passes, stallAfter_le s h r passes,
    fun idle => stallAfter_other _ _ _ (by simp [idle]) (by simp [idle]), plan⟩

theorem Tracked.faultTurn : Tracked s (s.setTrk (s.trk.itemEnded s.lif.item.endAt)).faultTurn := by
  rw [State.faultTurn_eq]
  have ended := itemEnded_sound (t := s.trk) (n := s.groupSize) s.lif.item.endAt
  unfold faultTrk faultXfu
  cases faultPasses s with
  | none => exact ⟨_, s.xfu.stall, s.xfu.plan, rfl, ended, id, fun _ => rfl, .inl rfl⟩
  | some k =>
    refine ⟨_, _, none, rfl, fun sound => passedTrk_sound s k (ended sound), fun le => ?_, fun idle => ?_, .inr rfl⟩
    · split
      · exact Nat.min_le_right _ _
      · exact le
    · simp [idle]

/-- The tracker starts its window anew (R99, R100). -/
theorem Tracked.window : Tracked s ((s.setTrk (s.trk.itemEnded s.lif.item.endAt)).setTrk
    ((s.trk.itemEnded s.lif.item.endAt).startWindow Config.itemQuiet)) :=
  ⟨(s.trk.itemEnded s.lif.item.endAt).startWindow Config.itemQuiet, s.xfu.stall, s.xfu.plan, rfl,
    itemEnded_sound s.lif.item.endAt, id, fun _ => rfl, .inl rfl⟩

theorem Tracked.trackFault (notHalted : s.stc.station ≠ .halted) :
    Tracked s (s.setTrk (s.trk.itemEnded s.lif.item.endAt)).trackFault := by
  unfold State.trackFault
  have state : (s.setTrk (s.trk.itemEnded s.lif.item.endAt)).stc.station = s.stc.station := rfl
  rw [state]
  cases e : s.stc.station with
  | halted => exact absurd e notHalted
  | founding => exact Tracked.window
  | listening =>
    dsimp only
    split
    · exact Tracked.faultTurn
    · exact Tracked.window
  | joining => exact Tracked.faultTurn
  | loading => exact Tracked.faultTurn
  | member => exact Tracked.faultTurn
  | leaving => exact Tracked.faultTurn
  | detached => exact Tracked.faultTurn

theorem Tracked.trackStream (g : StreamFrame) : Tracked s ((s.setTrk (s.trk.itemEnded s.lif.item.endAt)).trackStream g) := by
  have pass := s.adopt_pass g.sender g.rotation 0 g.moreFollows (!g.moreFollows)
  have plan : ∀ b : Prop, ∀ _ : Decidable b, (if b then s.xfu.plan else none) = s.xfu.plan ∨ (if b then s.xfu.plan else none) = none :=
    fun b _ => by by_cases e : b <;> simp [e]
  rw [State.trackStream]
  cases more : g.moreFollows <;> rw [more] at pass
  · exact pass ▸ Tracked.adopts _ _ _ _ _ (plan _ _)
  · exact pass ▸ Tracked.adopts _ _ _ _ _ (plan _ _)

theorem Tracked.trackItem (notHalted : s.stc.station ≠ .halted) (h : Heard) (own : Bool) : Tracked s (s.trackItem h own) := by
  cases h with
  | stream f =>
    rw [State.trackItem]
    split
    · exact Tracked.trackFault notHalted
    · exact Tracked.trackStream f
  | transfer t =>
    rw [State.trackItem_transfer]
    exact Tracked.adopts _ _ _ _ _ (by split <;> simp)
  | fault => exact Tracked.trackFault notHalted
  | profile p => exact Tracked.trackFault notHalted
  | duplicate => exact Tracked.trackFault notHalted

/-- The turn passes (R91). -/
theorem Tracked.passTurn : Tracked s s.passTurn := by
  cases holder : s.trk.holder with
  | none =>
    rw [State.passTurn, holder]
    exact ⟨s.trk, s.xfu.stall, s.xfu.plan, rfl, id, id, fun _ => rfl, .inl rfl⟩
  | some k =>
    rw [State.passTurn_of_holder holder]
    refine ⟨_, _, none, rfl, passedTrk_sound s k, fun le => ?_, fun idle => by simp [idle], .inr rfl⟩
    split
    · exact Nat.min_le_right _ _
    · split
      · exact Nat.min_le_right _ _
      · exact le

variable {w : Prop} {t : State} (h : StationHeld w s)
include h

theorem StationHeld.tracked (notHalted : s.stc.station ≠ .halted) (tracked : Tracked s t) : StationHeld w t := by
  obtain ⟨trk, k, p, rfl, sound, bound, same, plan⟩ := tracked
  obtain ⟨⟨core, attempt, table, commit⟩, stream⟩ := h
  exact ⟨⟨core.withTrk notHalted (sound core.tracker), attempt.counted (bound attempt.bounds.1) same plan, table, commit⟩,
    stream⟩

end

end Sys2Proof.Machine
end

section
/-! PROOFS. The Commit Unit's part of a delivery keeps the invariant: the exits from MEMBER, LEAVING and LOADING, the commit
of P with its reports, and every resolution (R69 to R86, R129 to R132, R146 to R153). -/

namespace Sys2Proof.Machine

/-! ### What the invariant does not read -/

section
variable {w : Prop} {s t : State}

theorem StationHeld.of_blocks (h : StationHeld w s) (queue : QueueSound t.ntq) (lif : t.lif = s.lif) (trk : t.trk = s.trk)
    (cmu : t.cmu = s.cmu) (tbu : t.tbu = s.tbu) (xfu : t.xfu = s.xfu) (stc : t.stc = s.stc) : StationHeld w t := by
  obtain ⟨⟨core, attempt, table, commit⟩, stream⟩ := h
  refine ⟨⟨?_, ?_, ?_, ?_⟩, ?_⟩
  · rw [trk, lif, stc]; exact core.withQueue queue
  · rw [xfu, stc]; exact attempt
  · rw [tbu, stc, xfu]; exact table
  · rw [cmu, stc]; exact commit
  · rw [cmu, stc, xfu]; exact stream

theorem StationMid.of_blocks (h : StationMid w s) (queue : QueueSound t.ntq) (lif : t.lif = s.lif) (trk : t.trk = s.trk)
    (cmu : t.cmu = s.cmu) (tbu : t.tbu = s.tbu) (xfu : t.xfu = s.xfu) (stc : t.stc = s.stc) : StationMid w t := by
  obtain ⟨core, attempt, table, commit⟩ := h
  refine ⟨?_, ?_, ?_, ?_⟩
  · rw [trk, lif, stc]; exact core.withQueue queue
  · rw [xfu, stc]; exact attempt
  · rw [tbu, stc, xfu]; exact table
  · rw [cmu, stc]; exact commit

variable (h : StationHeld w s)
include h

theorem StationHeld.offer (n : Note) : StationHeld w (s.offer n) :=
  h.of_blocks (h.mid.core.queue.offer n) rfl rfl rfl rfl rfl rfl

/-- Outside the states that resolve, what of CMU changes is no stream state (R66, R86). -/
theorem StationHeld.withCmu {u : Cmu} (commit : CommitHeld u s.stc.config.n.toNat)
    (stream : StreamHeld u s.stc.station s.xfu.phase) : StationHeld w (s.setCmu u) :=
  ⟨⟨h.mid.core, h.mid.attempt, h.mid.table, commit⟩, stream⟩

theorem StationHeld.hear (f : StreamFrame) : StationHeld w (s.hear f) :=
  h.withCmu ⟨h.mid.commit.counts, h.mid.commit.waiting⟩ ⟨fun not => congrArg (fun u : Cmu => { u with lastHeard := some f.ref })
    (h.stream.cleared not), h.stream.mark⟩

theorem StationHeld.ignoreFound (f : StreamFrame) (r : Word32) : StationHeld w (s.ignoreFound f r) := by
  unfold State.ignoreFound
  split
  · exact h
  · refine StationHeld.offer (h.withCmu (u := { s.cmu with foundReported := true }) ⟨h.mid.commit.counts, h.mid.commit.waiting⟩
      ⟨fun not => ?_, h.stream.mark⟩) _
    exact congrArg (fun u : Cmu => { u with foundReported := true }) (h.stream.cleared not)

/-- A hole at a replica; an own FOUND is heard only in FOUNDING (R69). -/
theorem StationHeld.cmuHole {own : Option OwnItem} (resolves : Resolves s.stc.station s.xfu.phase)
    (notFound : ∀ o, own = some o → o.kind ≠ .stream .found) : StationHeld w (s.cmuHole own) := by
  refine h.withCmu (h.mid.commit.hole own) ⟨fun not => absurd resolves not, fun m mark found => ?_⟩
  cases before : s.cmu.ownMark with
  | some x =>
    have same : (s.cmu.hole own).ownMark = some x := by simp [Cmu.hole, markHole, before]
    rw [same] at mark
    cases mark
    exact h.stream.mark m before found
  | none =>
    cases own with
    | none => simp [Cmu.hole, markHole, before] at mark
    | some o =>
      have taken : (s.cmu.hole (some o)).ownMark = if o.bare then none else some ⟨o.id, o.kind, true⟩ := by
        simp [Cmu.hole, markHole, before]
      rw [taken] at mark
      split at mark
      · cases mark
      · cases mark
        exact absurd found (notFound o rfl)

end

/-- Work inside the part only offers records (R175). -/
theorem Inside.queue {s t : State} (work : Inside s t) (h : QueueSound s.ntq) : QueueSound t.ntq := by
  obtain ⟨ns, e⟩ := work.ntq
  rw [e]
  exact h.offers ns

/-! ### Exits -/

section
variable {w : Prop} {s : State}

/-- A station that holds no attempt, image or history goes to LISTENING (R142). -/
theorem StationMid.toListening (core : CoreSound s.ntq s.trk s.lif s.stc) (notHalted : s.stc.station ≠ .halted)
    (free : s.stc.station = .founding → s.lif.sent = none) (commit : CommitHeld s.cmu s.stc.config.n.toNat)
    (joiner : s.xfu.clearJoiner = s.xfu) (donor : s.xfu.release = s.xfu) (table : s.tbu = Tbu.cleared) (r : StateReason)
    (f : Option JoinFailure) (rotation : Word32) : StationMid w (s.toListening r f rotation) :=
  .unattached (((core.withQueue (core.queue.offer _)).withTrk notHalted core.tracker.enterListening).move notHalted nofun free
    fun _ => rfl) commit nofun nofun joiner donor table

section
variable (core : CoreSound s.ntq s.trk s.lif s.stc) (attempt : AttemptSound w s.xfu s.stc)
include core attempt

/-- A failed attempt (R132, R147). -/
theorem StationHeld.joinFail (state : s.stc.station = .joining ∨ s.stc.station = .loading) (why : JoinFailure) (r : Word32) :
    StationHeld w (s.joinFail why r) := by
  have notMember : s.stc.station ≠ .member := by rcases state with e | e <;> simp [e]
  have notLeaving : s.stc.station ≠ .leaving := by rcases state with e | e <;> simp [e]
  have notHalted : s.stc.station ≠ .halted := by rcases state with e | e <;> simp [e]
  have notFounding : s.stc.station ≠ .founding := by rcases state with e | e <;> simp [e]
  refine ⟨StationMid.toListening (s := ((s.setXfu s.xfu.clearJoiner).clearTable).clearStream) core notHalted
    (fun e => absurd e notFounding) (.clear _ _) rfl ?_ rfl _ _ _, .clear _ _ _⟩
  exact congrArg Xfu.clearJoiner (attempt.release_of_other notMember notLeaving)

variable (state : s.stc.station = .member ∨ s.stc.station = .leaving)
include state

omit core in
/-- The donor's image is released at a station without an attempt (R138). -/
theorem AttemptSound.released : s.xfu.release.clearJoiner = s.xfu.release := by
  have idle := attempt.idle (by rcases state with e | e <;> simp [e]) (by rcases state with e | e <;> simp [e])
  exact congrArg Xfu.release (attempt.joiner idle)

/-- MEMBER and LEAVING are left for LISTENING, after `t`'s work (R146, R152, R153). -/
theorem StationMid.leaveGroup {t : State} (work : Inside s t) (lif : t.lif = s.lif) (trk : t.trk = s.trk)
    (stc : t.stc = s.stc) (xfu : t.xfu = s.xfu) (commit : CommitHeld t.cmu s.stc.config.n.toNat) (r : StateReason)
    (rotation : Word32) : StationMid w (((t.clearTable).releaseImage).toListening r none rotation) := by
  have notHalted : s.stc.station ≠ .halted := by rcases state with e | e <;> simp [e]
  have notFounding : s.stc.station ≠ .founding := by rcases state with e | e <;> simp [e]
  refine StationMid.toListening (s := (t.clearTable).releaseImage) ?_ ?_ ?_ ?_ ?_ rfl rfl _ _ _
  · show CoreSound t.ntq t.trk t.lif t.stc
    rw [lif, trk, stc]
    exact core.withQueue (work.queue core.queue)
  · show t.stc.station ≠ .halted
    rwa [stc]
  · show t.stc.station = .founding → _
    rw [stc]
    exact fun e => absurd e notFounding
  · show CommitHeld t.cmu t.stc.config.n.toNat
    rwa [stc]
  · show t.xfu.release.clearJoiner = t.xfu.release
    rw [xfu]
    exact attempt.released state

end

end

/-! ### The commit of P (R70, R81) -/

section
variable {w : Prop} {v : State} (h : StationHeld w v)

/-- The waiting frame is the one committed. -/
theorem Cmu.waiting_of_commit {c : Cmu} {g p : StreamFrame} (h : c.resolution g = .commit p) : c.waiting = some p := by
  have last : c.resolutionByLast g ≠ .commit p := by
    unfold Cmu.resolutionByLast
    split
    · split <;> nofun
    · split <;> nofun
  unfold Cmu.resolution at h
  split at h
  · next q e =>
    split at h
    · split at h
      · cases h; exact e
      · cases h
    · exact absurd h last
  · exact absurd h last

include h

/-- The joiner is donor of none: its own entry is JOINING (R52, R127). -/
theorem StationHeld.not_named (state : v.stc.station = .loading) (resolves : Resolves v.stc.station v.xfu.phase)
    (p : StreamFrame) : ¬ (p.kind = .join ∧ (boundedTable v p).tbu.joinDonor v.groupSize p.sender = some v.number) := by
  rintro ⟨join, named⟩
  have member := State.namedDonor_member (s := v) (p := p) (t := (boundedTable v p).tbu) (by simp [State.namedDonor, join, named])
  have before := NoNewMember.frameBoundaries v.groupSize v.absenceLimit p v.tbu _ member
  have joining : (v.tbu.entry v.number).isJoining = true := h.mid.table.entry (by simpa [Resolves, state] using resolves)
  rw [show v.tbu.begin.tbu = v.tbu from rfl] at before
  cases e : v.tbu.entry v.number <;> simp [e, RosterEntry.isJoining, RosterEntry.isMember] at joining before

theorem StationHeld.donorAfter (resolves : Resolves v.stc.station v.xfu.phase) (p : StreamFrame) :
    AttemptSound w (donorAfter v p v.xfu) v.stc := by
  by_cases state : v.stc.station = .member ∨ v.stc.station = .leaving
  · unfold Machine.donorAfter
    split
    · exact h.mid.attempt.serving state
    · split
      · exact h.mid.attempt
      · exact h.mid.attempt.serving state
  · have notMember : v.stc.station ≠ .member := fun e => state (.inl e)
    have notLeaving : v.stc.station ≠ .leaving := fun e => state (.inr e)
    have loading : v.stc.station = .loading := h.mid.attempt.loading.mpr (.inr (by simpa [Resolves, notMember, notLeaving] using resolves))
    rw [Machine.donorAfter, if_neg (h.not_named loading resolves p)]
    split
    · exact h.mid.attempt
    · exact (h.mid.attempt.release_of_other notMember notLeaving).symm ▸ h.mid.attempt

theorem StationHeld.withCommit_core (p : StreamFrame) :
    CoreSound (v.withCommit p).ntq (v.withCommit p).trk (v.withCommit p).lif (v.withCommit p).stc :=
  h.mid.core.withQueue (h.mid.core.queue.offers _)

theorem StationHeld.withCommit_table (notHalted : v.stc.station ≠ .halted) {p : StreamFrame}
    (pending : v.cmu.waiting = some p) : TableKept w [] (v.withCommit p).tbu ∧ OneJoiner (v.withCommit p).tbu :=
  ⟨h.mid.table.kept.application _ (h.mid.core.config notHalted).1.2 (h.mid.commit.waiting p pending),
    h.mid.table.roster.application _ _ p⟩

/-- Without a report the application stands; in LOADING the own entry is then still JOINING (R65, R130). -/
theorem StationHeld.applied (resolves : Resolves v.stc.station v.xfu.phase) {p : StreamFrame}
    (pending : v.cmu.waiting = some p) (entry : v.stc.station = .loading →
      ((v.withCommit p).tbu.entry v.number).isJoining = true) : StationMid w (v.withCommit p) := by
  have notHalted : v.stc.station ≠ .halted := by
    intro e
    have notLoading : ¬ v.stc.station = .loading := by simp [e]
    rw [h.mid.attempt.loading] at notLoading
    simp only [Resolves, e] at resolves
    tauto
  have phase : (v.withCommit p).xfu.phase = v.xfu.phase := donorAfter_phase v p v.xfu
  obtain ⟨kept, roster⟩ := h.withCommit_table notHalted pending
  refine ⟨h.withCommit_core p, h.donorAfter resolves p, ⟨kept, roster, fun e => ?_, fun not => ?_⟩, h.mid.commit.folded p⟩
  · rw [phase] at e
    exact entry (h.mid.attempt.loading.mpr (.inr e))
  · rw [phase] at not
    exact absurd resolves not

/-- In MEMBER and LEAVING: self-absence, the commit of the own LEAVE, or neither (R64, R151, R153). -/
theorem StationHeld.memberReport (state : v.stc.station = .member ∨ v.stc.station = .leaving) {p : StreamFrame}
    (pending : v.cmu.waiting = some p) (before bounded : Tbu) : StationMid w ((v.withCommit p).memberReport p before bounded)
      ∧ ((v.withCommit p).memberReport p before bounded).stc.station ≠ .loading := by
  have resolves : Resolves v.stc.station v.xfu.phase := state.elim .inl fun e => .inr (.inl e)
  have core := h.withCommit_core p
  have attempt := h.donorAfter resolves p
  have notHalted : v.stc.station ≠ .halted := by rcases state with e | e <;> simp [e]
  have notFounding : v.stc.station ≠ .founding := by rcases state with e | e <;> simp [e]
  have notLoading : v.stc.station ≠ .loading := by rcases state with e | e <;> simp [e]
  unfold State.memberReport
  split
  · refine ⟨StationMid.leaveGroup (s := v.withCommit p) core attempt state (Inside.abortAll (v.withCommit p) _) ?_ ?_ ?_ ?_ ?_
      .absent p.rotation, by simp⟩
    · simp
    · simp
    · simp
    · simp
    · rw [State.abortAll_cmu]
      exact h.mid.commit.folded p
  · split
    · exact ⟨.unattached (s := (v.withCommit p).leaveComplete p.rotation)
        ((core.withQueue (core.queue.offer _)).move notHalted nofun (fun e => absurd e notFounding) fun _ => rfl)
        (h.mid.commit.folded p) nofun nofun (attempt.released (s := v.withCommit p) state) rfl rfl, nofun⟩
    · exact ⟨h.applied resolves pending fun e => absurd e notLoading, notLoading⟩

/-- In LOADING: the own entry is still JOINING, or MEMBER by the own READY, or the attempt fails (R129, R130). -/
theorem StationHeld.loadingReport (state : v.stc.station = .loading) (resolves : Resolves v.stc.station v.xfu.phase)
    {p : StreamFrame} (pending : v.cmu.waiting = some p) (before bounded : Tbu) :
    StationMid w ((v.withCommit p).ownEntryReport p before bounded)
      ∧ (((v.withCommit p).ownEntryReport p before bounded).stc.station = .loading →
        ((v.withCommit p).ownEntryReport p before bounded).cmu.ownMark = v.cmu.ownMark) := by
  have core := h.withCommit_core p
  have attempt := h.donorAfter resolves p
  have notHalted : v.stc.station ≠ .halted := by simp [state]
  obtain ⟨kept, roster⟩ := h.withCommit_table notHalted pending
  by_cases joining : ((v.withCommit p).tbu.entry (v.withCommit p).number).isJoining = true
  · rw [State.ownEntryReport_of_joining (t := v.withCommit p) state joining]
    exact ⟨h.applied resolves pending fun _ => joining, fun _ => rfl⟩
  · by_cases ready : ((v.withCommit p).tbu.entry (v.withCommit p).number).isMember = true ∧ p.kind = .ready
        ∧ p.sender = (v.withCommit p).number
    · obtain ⟨member, kind, own⟩ := ready
      rw [State.ownEntryReport_of_ready (t := v.withCommit p) state member kind own]
      have leave : v.stc.leave = .idle := h.mid.core.leave (by simp [state])
      refine ⟨⟨(core.withQueue (core.queue.offer _)).move notHalted nofun (fun e => ?_) (fun _ => leave),
        .ofCleared rfl (fun e => absurd rfl e) nofun nofun, ⟨kept, roster, nofun, fun not => absurd (.inl rfl) not⟩,
        h.mid.commit.folded p⟩, nofun⟩
      exact absurd (state.symm.trans e) nofun
    · rw [State.ownEntryReport_of_removed (t := v.withCommit p) state (by simpa using joining) (by tauto)]
      exact ⟨(StationHeld.joinFail (s := v.withCommit p) core attempt (.inr state) _ _).mid, nofun⟩

/-- The reports of the own entry at the end of a commit; a FOUND of the own is pending in no LOADING station (R81). -/
theorem StationHeld.reported (resolves : Resolves v.stc.station v.xfu.phase) {p : StreamFrame}
    (pending : v.cmu.waiting = some p) {t : State}
    (report : (v.withCommit p).ownEntryReport p v.tbu (boundedTable v p).tbu = t) :
    StationMid w t ∧ (t.stc.station = .loading → ∀ m, t.cmu.ownMark = some m → m.kind ≠ .stream .found) := by
  subst report
  by_cases state : v.stc.station = .member ∨ v.stc.station = .leaving
  · have same : (v.withCommit p).ownEntryReport p v.tbu (boundedTable v p).tbu
        = (v.withCommit p).memberReport p v.tbu (boundedTable v p).tbu := by
      have stc : (v.withCommit p).stc = v.stc := rfl
      rcases state with e | e <;> rw [State.ownEntryReport, stc, e]
    obtain ⟨mid, notLoading⟩ := h.memberReport state pending v.tbu (boundedTable v p).tbu
    rw [same]
    exact ⟨mid, fun e => absurd e notLoading⟩
  · have loading : v.stc.station = .loading := h.mid.attempt.loading.mpr (.inr (by simpa [Resolves, not_or.mp state] using resolves))
    obtain ⟨mid, kept⟩ := h.loadingReport loading resolves pending v.tbu (boundedTable v p).tbu
    exact ⟨mid, fun stays m mark found => state (h.stream.mark m (kept stays ▸ mark) found)⟩

end

/-! ### The fate of the own mark, and the end of a resolution (R75, R79, R80) -/

section
variable {w : Prop} {t : State} (h : StationMid w t)
include h

theorem StationMid.rquVoided (id : FrameId) : StationMid w (t.rquVoided id) ∧ (t.rquVoided id).stc = t.stc := by
  have queue := (Inside.rquVoided t id).queue h.core.queue
  unfold State.rquVoided at queue ⊢
  split
  · split
    · next voids leaving =>
      rw [if_pos voids, if_pos leaving] at queue
      exact ⟨h.of_blocks queue rfl rfl rfl rfl rfl rfl, rfl⟩
    · exact ⟨h.of_blocks (t := t.setRqu t.rqu.requeue) h.core.queue rfl rfl rfl rfl rfl rfl, rfl⟩
  · exact ⟨h, rfl⟩

/-- The leave phase changes in LEAVING (R150). -/
theorem StationMid.withLeave (leaving : t.stc.station = .leaving) (l : LeavePhase) :
    StationMid w (t.setStc { t.stc with leave := l }) :=
  ⟨h.core.withLeave leaving, { h.attempt with }, { h.table with }, h.commit⟩

theorem StationMid.stcVoided {m : OwnMark} (state : m.kind = .stream .found → t.stc.station = .member ∨ t.stc.station = .leaving) :
    StationMid w (t.stcVoided m) := by
  unfold State.stcVoided
  split
  · next found =>
    have notHalted : t.stc.station ≠ .halted := by rcases state found with e | e <;> simp [e]
    exact StationMid.leaveGroup (t := (t.abortOutgoing t.trk.rotation).clearStream) h.core h.attempt (state found)
      ((Inside.abortOutgoing t _).trans (Inside.clearStream _)) rfl rfl rfl rfl (.clear _ _) _ _
  · split
    · next leaves =>
      simp only [Bool.and_eq_true, decide_eq_true_eq] at leaves
      exact h.withLeave leaves.2 _
    · exact h

theorem StationMid.reportFate (replica : t.isReplica = true)
    (mark : t.stc.station = .loading → ∀ m, t.cmu.ownMark = some m → m.kind ≠ .stream .found) (committed : Bool) :
    StationMid w (t.reportFate committed) := by
  unfold State.reportFate
  split
  · exact h
  · next m own =>
    split
    · exact h.of_blocks (t := t.setRqu _) h.core.queue rfl rfl rfl rfl rfl rfl
    · obtain ⟨mid, stc⟩ := h.rquVoided m.id
      refine mid.stcVoided fun found => ?_
      rw [stc]
      rcases State.isReplica_cases replica with e | e | ⟨e, -⟩
      · exact .inl e
      · exact .inr e
      · exact absurd found (mark e m own)

/-- G becomes P at a replica, and a station that has left the replica states holds no stream state (R75, R81). -/
theorem StationMid.finishResolution {g : StreamFrame} (wf : g.wf t.stc.config.n.toNat = true) (notFound : g.kind ≠ .found)
    (own : Bool) : StationHeld w (t.finishResolution g own) := by
  cases replica : t.isReplica with
  | false =>
    rw [State.finishResolution_of_left replica]
    exact ⟨⟨h.core, h.attempt, h.table, .clear _ _⟩, .clear _ _ _⟩
  | true =>
    have resolves := (isReplica_iff h.attempt.loading).mp replica
    rw [State.finishResolution_of_replica replica]
    refine ⟨⟨h.core, h.attempt, h.table, .clean _ own wf⟩, fun not => absurd resolves not, fun m mark found => ?_⟩
    simp only [State.setCmu_cmu, Cmu.clean] at mark
    split at mark
    · cases mark
      exact absurd (FrameKind.stream.inj found) notFound
    · cases mark

end

/-! ### A resolution (R70 to R74, R84) -/

section
variable {w : Prop} {v : State} (h : StationHeld w v) (resolves : Resolves v.stc.station v.xfu.phase)
include h resolves

theorem StationHeld.diverge (g : StreamFrame) (cause : DivergeCause) : StationHeld w (v.diverge g cause) := by
  unfold State.diverge
  split
  · next state => exact .joinFail h.mid.core h.mid.attempt (.inr state) _ _
  · next other =>
    have state : v.stc.station = .member ∨ v.stc.station = .leaving := by
      have := mt h.mid.attempt.loading.mpr other
      simp only [Resolves] at resolves
      tauto
    have noted := h.offer (stationNote .diverged g.rotation (.cause cause))
    exact ⟨StationMid.leaveGroup (s := (v.offer (stationNote .diverged g.rotation (.cause cause))).clearStream) noted.mid.core
      noted.mid.attempt state (Inside.abortAll _ _) rfl rfl rfl rfl (.clear _ _) _ _, .clear _ _ _⟩

theorem StationHeld.discord (g : StreamFrame) : StationHeld w (v.discord g) := by
  unfold State.discord
  split
  · exact h.withCmu (h.mid.commit.discordant g.sender) ⟨fun not => absurd resolves not, h.stream.mark⟩
  · split
    · exact h
    · exact h.diverge resolves g _

theorem StationHeld.commitWaiting {p g : StreamFrame} (pending : v.cmu.waiting = some p)
    (wf : g.wf v.stc.config.n.toNat = true) (notFound : g.kind ≠ .found) (own : Bool) : StationHeld w (v.commitWaiting p g own) := by
  rw [show v.commitWaiting p g own
      = (if ((v.withCommit p).ownEntryReport p v.tbu (boundedTable v p).tbu).isReplica
        then ((v.withCommit p).ownEntryReport p v.tbu (boundedTable v p).tbu).reportFate true
        else (v.withCommit p).ownEntryReport p v.tbu (boundedTable v p).tbu).finishResolution g own by
    rw [← State.applyCommitted_eq]; rfl]
  obtain ⟨mid, mark⟩ := h.reported resolves pending rfl
  have config := (Inside.ownEntryReport (v.withCommit p) p v.tbu (boundedTable v p).tbu).config
  split
  · next replica =>
    refine (mid.reportFate replica mark true).finishResolution ?_ notFound own
    rw [(Inside.reportFate _ true).config, config]
    exact wf
  · refine mid.finishResolution ?_ notFound own
    rw [config]
    exact wf

theorem StationHeld.resolve {g : StreamFrame} (wf : g.wf v.stc.config.n.toNat = true) (notFound : g.kind ≠ .found)
    (own : Bool) : StationHeld w (v.resolve g own) := by
  unfold State.resolve
  split
  · next p commits => exact h.commitWaiting resolves (Cmu.waiting_of_commit commits) wf notFound own
  · have replica := (isReplica_iff h.mid.attempt.loading).mpr resolves
    have mark : v.stc.station = .loading → ∀ m, v.cmu.ownMark = some m → m.kind ≠ .stream .found := by
      intro loading m own found
      rcases h.stream.mark m own found with e | e <;> rw [e] at loading <;> cases loading
    refine (h.mid.reportFate replica mark false).finishResolution ?_ notFound own
    rwa [(Inside.reportFate v false).config]
  · exact h.discord resolves g
  · exact h.diverge resolves g _

end

end Sys2Proof.Machine
end

section
/-! PROOFS. The Transfer Unit's part of a delivery keeps the invariant: the fate of a JOIN, the catch-up queue, the assembly
map, the load of an image and its replay (R120 to R134). -/

namespace Sys2Proof.Machine

section
variable {w : Prop} {s : State}

/-! ### The attempt as it goes on -/

theorem StreamHeld.of_cleared {u : Cmu} (cleared : u = u.clearStream) (st : StationState) (phase : JoinPhase) :
    StreamHeld u st phase :=
  ⟨fun _ => cleared, fun m mark => by rw [cleared] at mark; cases mark⟩

theorem StationHeld.withXfu (h : StationHeld w s) {x : Xfu} (attempt : AttemptSound w x s.stc)
    (phase : x.phase = s.xfu.phase) : StationHeld w (s.setXfu x) := by
  refine ⟨⟨h.mid.core, attempt, ?_, h.mid.commit⟩, ?_⟩
  · rw [State.setXfu_tbu, State.setXfu_stc, State.setXfu_xfu, phase]; exact h.mid.table
  · rw [State.setXfu_cmu, State.setXfu_stc, State.setXfu_xfu, phase]; exact h.stream

/-- What a catch-up entry holds: a stream frame in range, and no FOUND (R124). -/
def CatchEntry.Fits (n : Nat) (e : CatchEntry) : Prop := e.noFound ∧ ∀ g own, e = .frame g own → g.wf n = true

/-- What a slot of the map holds (R125). -/
def SnapItem.Fits (w : Prop) (n i : Nat) (it : SnapItem) : Prop :=
  it.wf n i = true ∧ (w → ∀ r, it = .record r → headWaits r)

section
variable {x : Xfu} {c : Stc} (h : AttemptSound w x c) (attempting : x.phase ≠ .idle)
include h attempting

theorem AttemptSound.append {e : CatchEntry} (fits : e.Fits c.config.n.toNat) (room : x.catchup.length < 48) :
    AttemptSound w { x with catchup := x.catchup ++ [e] } c :=
  { h with
    bounds := ⟨h.bounds.1, by simpa using room⟩
    joiner := fun idle => absurd idle attempting
    queued := fun e' he => (List.mem_append.mp he).elim (h.queued e') fun last => by
      rw [List.mem_singleton.mp last]; exact fits }

theorem AttemptSound.shorten {l : List CatchEntry} (sub : l.Sublist x.catchup) : AttemptSound w { x with catchup := l } c :=
  { h with
    bounds := ⟨h.bounds.1, sub.length_le.trans h.bounds.2⟩
    joiner := fun idle => absurd idle attempting
    queued := fun e he => h.queued e (sub.subset he) }

theorem AttemptSound.marked (m : Option JoinMark) : AttemptSound w { x with joinMark := m } c :=
  { h with joiner := fun idle => absurd idle attempting }

/-- The map is written (R125). -/
theorem AttemptSound.mapped {m : Vector (Option SnapItem) 65} {total : Option Nat} {wanted stall : Nat} (bound : stall ≤ 3)
    (fits : ∀ i (it : SnapItem), m[i]?.getD none = some it → it.Fits w c.config.n.toNat i) :
    AttemptSound w { x with map := m, total := total, wanted := wanted, stall := stall } c :=
  { h with
    bounds := ⟨bound, h.bounds.2⟩
    joiner := fun idle => absurd idle attempting
    slots := fits }

end

theorem emptyMap_get (i : Nat) : (Vector.replicate 65 (none : Option SnapItem))[i]?.getD none = none := by
  rw [Vector.getElem?_replicate]
  split <;> rfl

theorem StationHeld.endReplay (h : StationHeld w s) : StationHeld w s.endReplay := by
  unfold State.endReplay
  split
  · next ends =>
    obtain ⟨phase, -⟩ := ends
    have state : s.stc.station = .loading := h.mid.attempt.loading.mpr (.inr (.inl phase))
    have resolves : Resolves s.stc.station .confirming := .inr (.inr (.inr rfl))
    refine ⟨⟨h.mid.core, { h.mid.attempt with awaiting := ?_, loading := ?_, joiner := nofun },
      ⟨h.mid.table.kept, h.mid.table.roster, fun _ => h.mid.table.entry (.inl phase), fun not => absurd resolves not⟩,
      h.mid.commit⟩, ⟨fun not => absurd resolves not, h.stream.mark⟩⟩
    · simp [state]
    · simp [state]
  · exact h

/-! ### The oldest catch-up entry (R85, R128) -/

theorem StationHeld.replayNext (h : StationHeld w s) (phase : s.xfu.phase = .replaying) : StationHeld w s.replayNext := by
  unfold State.replayNext
  split
  · exact h.endReplay
  · next e rest queued =>
    have mem : e ∈ s.xfu.catchup := by rw [queued]; exact List.mem_cons_self
    have popped : StationHeld w (s.setXfu { s.xfu with catchup := rest }) :=
      h.withXfu (h.mid.attempt.shorten (by simp [phase]) (queued ▸ List.sublist_cons_self e rest)) rfl
    obtain ⟨noFound, wf⟩ := h.mid.attempt.queued e mem
    have resolves : Resolves s.stc.station s.xfu.phase := .inr (.inr (.inl phase))
    refine StationHeld.endReplay ?_
    cases e with
    | frame g own => exact popped.resolve resolves (wf g own rfl) noFound own
    | hole own =>
      refine popped.cmuHole resolves fun o e => ?_
      subst e
      exact noFound

/-! ### The catch-up queue and the fate of the JOIN (R120 to R124) -/

variable (h : StationHeld w s)
include h

theorem StationHeld.catchAppend (state : s.stc.station = .joining ∨ s.stc.station = .loading) {e : CatchEntry}
    (fits : e.Fits s.stc.config.n.toNat) : StationHeld w (s.catchAppend e) := by
  unfold State.catchAppend
  split
  · next room =>
    refine h.withXfu (h.mid.attempt.append ?_ fits room) rfl
    rcases state with e | e
    · simp [h.mid.attempt.awaiting.mp e]
    · rcases h.mid.attempt.loading.mp e with p | p | p <;> simp [p]
  · exact .joinFail h.mid.core h.mid.attempt state _ _

/-- A committed JOIN starts the gathering (R123). -/
theorem StationHeld.enterGathering (state : s.stc.station = .joining) (join : FrameRef) : StationHeld w (s.enterGathering join) := by
  have phase := h.mid.attempt.awaiting.mp state
  have idle : ¬ Resolves s.stc.station s.xfu.phase := by simp [Resolves, state, phase]
  have leave : s.stc.leave = .idle := h.mid.core.leave (by simp [state])
  refine ⟨⟨(h.mid.core.withQueue (h.mid.core.queue.offer _)).move (by simp [state]) nofun (fun e => ?_) fun _ => leave,
    { bounds := ⟨Nat.zero_le _, h.mid.attempt.bounds.2⟩, awaiting := ⟨nofun, nofun⟩, loading := ⟨fun _ => .inl rfl, fun _ => rfl⟩
      donor := fun _ _ => h.mid.attempt.donor (by simp [state]) (by simp [state])
      joiner := nofun, queued := h.mid.attempt.queued, slots := fun i it e => ?_ },
    ⟨h.mid.table.kept, h.mid.table.roster, by simp [State.enterGathering], fun _ => h.mid.table.cleared idle⟩, h.mid.commit⟩,
    .of_cleared (h.stream.cleared idle) _ _⟩
  · rw [state] at e; cases e
  · exact absurd ((emptyMap_get i).symm.trans e) nofun

theorem StationHeld.joinFate (state : s.stc.station = .joining) {g : StreamFrame} (wf : g.wf s.stc.config.n.toNat = true)
    (notFound : g.kind ≠ .found) (join : FrameRef) (own : Bool) : StationHeld w (s.joinFate join g own) := by
  have failed : ∀ why r, StationHeld w (s.joinFail why r) := .joinFail h.mid.core h.mid.attempt (.inl state)
  have attempting : s.xfu.phase ≠ .idle := by simp [h.mid.attempt.awaiting.mp state]
  have fits : (CatchEntry.frame g own).Fits s.stc.config.n.toNat := ⟨notFound, fun _ _ e => by cases e; exact wf⟩
  unfold State.joinFate
  split
  · split
    · next room =>
      rw [State.catchAppend_of_room room]
      exact (h.withXfu (h.mid.attempt.append attempting fits room) rfl).enterGathering state join
    · exact failed _ _
  · split
    · exact failed _ _
    · exact h.withXfu ((h.mid.attempt.marked attempting none).shorten attempting (List.nil_sublist _)) rfl

/-! ### The assembly map and the load of an image (R18, R125, R127) -/

omit h in
theorem itemsWf_get {n : Nat} : ∀ {items : List SnapItem} {i j : Nat} {it : SnapItem}, itemsWf n i items = true →
    items[j]? = some it → it.wf n (i + j) = true
  | x :: rest, i, 0, it, wf, e => by
    simp only [itemsWf, Bool.and_eq_true] at wf
    cases e
    exact wf.1
  | x :: rest, i, j + 1, it, wf, e => by
    simp only [itemsWf, Bool.and_eq_true] at wf
    have := itemsWf_get wf.2 (j := j) e
    rwa [show i + (j + 1) = i + 1 + j by omega]

theorem StationHeld.regather (phase : s.xfu.phase = .gathering) : StationHeld w s.regather :=
  h.withXfu (h.mid.attempt.mapped (by simp [phase]) h.mid.attempt.bounds.1 fun i it e => absurd ((emptyMap_get i).symm.trans e) nofun)
    rfl

/-- The image is loaded, and the own entry found JOINING or not (R127, R130). -/
theorem StationHeld.startReplay (phase : s.xfu.phase = .gathering) {ros : RosterItem} {recs : List ResRecord} (total : Nat)
    (form : ImageForm ros recs) (len : recs.length ≤ 64) (fits : ∀ r ∈ recs, r.wf s.stc.config.n.toNat = true ∧ (w → headWaits r)) :
    StationHeld w (s.startReplay ros recs total) := by
  have state : s.stc.station = .loading := h.mid.attempt.loading.mpr (.inl phase)
  have notHalted : s.stc.station ≠ .halted := by simp [state]
  have attempt : AttemptSound w (s.loaded ros recs total).xfu s.stc :=
    { h.mid.attempt with
      awaiting := by simp [state, State.loaded], loading := by simp [state, State.loaded], joiner := nofun
      slots := fun i it e => absurd ((emptyMap_get i).symm.trans e) nofun }
  rw [State.startReplay_eq, ← State.joinFail_eq]
  split
  · next joining =>
    refine StationHeld.endReplay (s := s.loaded ros recs total) ⟨⟨h.mid.core, attempt, ?_, ?_⟩, ?_⟩
    · exact ⟨.ofImage (h.mid.core.config notHalted).1.2 len (fun r hr => (fits r hr).1) form fun hw r hr => (fits r hr).2 hw,
        .ofImage form.2.2.2.2, fun _ => joining, fun not => absurd (.inr (.inr (.inl rfl))) not⟩
    · exact ⟨(CommitHeld.clear s.cmu s.stc.config.n.toNat).counts, nofun⟩
    · exact ⟨fun not => absurd (.inr (.inr (.inl rfl))) not, nofun⟩
  · exact StationHeld.joinFail (s := s.loaded ros recs total) h.mid.core attempt (.inr state) _ _

theorem StationHeld.checkMap (phase : s.xfu.phase = .gathering) {total : Nat} (bound : total ≤ 65) : StationHeld w (s.checkMap total) := by
  unfold State.checkMap
  dsimp only
  split
  · next complete =>
    split
    · next ros rest items =>
      split
      · next one =>
        have slots : ∀ r ∈ recordsOf rest, ∃ i, s.xfu.slot i = some (.record r) := by
          intro r hr
          obtain ⟨it, mem, is⟩ := List.mem_filterMap.mp hr
          have record : it = .record r := by
            cases it with
            | roster q => cases is
            | record q => cases is; rfl
          have taken : it ∈ (List.range total).filterMap s.xfu.slot := by
            rw [items]
            exact List.mem_cons_of_mem _ mem
          obtain ⟨i, -, slot⟩ := List.mem_filterMap.mp taken
          exact ⟨i, record ▸ slot⟩
        refine h.startReplay phase total ((oneImage_iff ros _).mp one) ?_ fun r hr => ?_
        · have short : (recordsOf rest).length ≤ rest.length := List.length_filterMap_le _ _
          rw [items] at complete
          simp only [List.length_cons] at complete
          omega
        · obtain ⟨i, e⟩ := slots r hr
          obtain ⟨wf, waits⟩ := h.mid.attempt.slots i _ e
          simp only [SnapItem.wf, Bool.and_eq_true] at wf
          exact ⟨wf.2, fun hw => waits hw r rfl⟩
      · exact h.regather phase
    · exact h.regather phase
  · exact h

/-- A transfer frame in range is written into the map (R125). -/
theorem StationHeld.storeTransfer (phase : s.xfu.phase = .gathering) {t : TransferFrame}
    (wf : t.wf s.stc.config.n.toNat = true) (waits : w → ∀ r, .record r ∈ t.items → headWaits r) :
    StationHeld w (s.storeTransfer t) := by
  obtain ⟨-, -, -, -, -, -, bound, inside, itemsWf⟩ := TransferFrame.wf_iff.mp wf
  unfold State.storeTransfer
  split
  · dsimp only
    refine StationHeld.checkMap ?_ (by exact phase) bound
    refine h.withXfu (h.mid.attempt.mapped (by simp [phase]) ?_ fun i it e => ?_) rfl
    · split
      · exact Nat.zero_le _
      · exact h.mid.attempt.bounds.1
    · rw [fillMap_get t.items s.xfu.map t.first i (by omega)] at e
      split at e
      · next written =>
        have fits := itemsWf_get itemsWf e
        rw [show t.first + (i - t.first) = i by omega] at fits
        exact ⟨fits, fun hw r eq => waits hw r (eq ▸ List.mem_of_getElem? e)⟩
      · exact h.mid.attempt.slots i it e
  · exact h

/-! ### An item at the Transfer Unit (R105, R119) -/

/-- What a delivery hands to CMU and XFU: frames in range (R106), and record items whose head waiters wait (R11). -/
structure ItemFits (w : Prop) (n : Nat) (heard : Heard) : Prop where
  stream : ∀ g, heard = .stream g → g.wf n = true
  transfer : ∀ t, heard = .transfer t → t.wf n = true ∧ (w → ∀ r, .record r ∈ t.items → headWaits r)

variable {heard : Heard} (fits : ItemFits w s.stc.config.n.toNat heard) {sent : Option OwnItem}
include fits

theorem StationHeld.awaitItem (phase : s.xfu.phase = .awaiting) (notFound : ∀ o, sent = some o → o.kind ≠ .stream .found)
    (own : Bool) : StationHeld w (s.awaitItem heard own sent) := by
  have state : s.stc.station = .joining := h.mid.attempt.awaiting.mpr phase
  have attempting : s.xfu.phase ≠ .idle := by simp [phase]
  have marked : ∀ m, StationHeld w (s.setXfu { s.xfu with joinMark := m }) := fun m =>
    h.withXfu (h.mid.attempt.marked attempting m) rfl
  have hole : StationHeld w (s.catchAppend (.hole sent)) := h.catchAppend (.inl state) ⟨by
    cases sent with
    | none => trivial
    | some o => exact notFound o rfl, nofun⟩
  unfold State.awaitItem
  split
  · exact h
  · next id e =>
    split
    · cases heard with
      | transfer t => exact h
      | stream f => exact marked _
      | fault => exact marked _
      | profile p => exact marked _
      | duplicate => exact marked _
    · exact h
  · next id check e =>
    cases heard with
    | transfer t => exact h
    | stream g =>
      dsimp only
      split
      · exact h
      · next other => exact h.joinFate state (fits.stream g rfl) other _ _
    | fault => exact hole
    | profile p => exact hole
    | duplicate => exact hole

theorem StationHeld.catchItem (phase : s.xfu.phase = .gathering ∨ s.xfu.phase = .replaying)
    (notFound : ∀ o, sent = some o → o.kind ≠ .stream .found) (own : Bool) : StationHeld w (s.catchItem heard own sent) := by
  have state : s.stc.station = .loading := h.mid.attempt.loading.mpr (phase.elim .inl fun e => .inr (.inl e))
  have hole : StationHeld w (s.catchAppend (.hole sent)) := h.catchAppend (.inr state) ⟨by
    cases sent with
    | none => trivial
    | some o => exact notFound o rfl, nofun⟩
  cases heard with
  | stream g =>
    rw [State.catchItem]
    split
    · exact h
    · next other => exact h.catchAppend (.inr state) ⟨other, fun _ _ e => by cases e; exact fits.stream g rfl⟩
  | transfer t =>
    rw [State.catchItem]
    obtain ⟨wf, waits⟩ := fits.transfer t rfl
    split
    · next gathering => exact h.storeTransfer gathering wf waits
    · exact h
  | fault => exact hole
  | profile p => exact hole
  | duplicate => exact hole

theorem StationHeld.xfuItem (notFound : s.xfu.phase ≠ .idle → ∀ o, sent = some o → o.kind ≠ .stream .found) (own : Bool) :
    StationHeld w (s.xfuItem heard own sent) := by
  unfold State.xfuItem
  split
  · next phase => exact h.awaitItem fits phase (notFound (by simp [phase])) own
  · next phase => exact h.catchItem fits (.inl phase) (notFound (by simp [phase])) own
  · next phase => exact h.catchItem fits (.inr phase) (notFound (by simp [phase])) own
  · exact h
  · cases heard with
    | stream g =>
      obtain ⟨⟨k, read⟩, unread⟩ := Xfu.readRequest_cases s.xfu g
      cases image : s.xfu.image with
      | none =>
        dsimp only
        rw [unread image]
        exact h
      | some img =>
        have state : s.stc.station = .member ∨ s.stc.station = .leaving := by
          by_contra none
          obtain ⟨notMember, notLeaving⟩ := not_or.mp none
          have := (h.mid.attempt.donor notMember notLeaving).1
          rw [image] at this
          cases this
        dsimp only
        rw [read]
        exact h.withXfu (h.mid.attempt.serving (i := s.xfu.image) (k := k) (p := s.xfu.plan) state) rfl
    | transfer t => exact h
    | fault => exact h
    | profile p => exact h
    | duplicate => exact h

end

end Sys2Proof.Machine
end

section
/-! PROOFS. A delivery keeps the invariant: what each block takes of an item, in the order of R105 (R67, R83, R104 to R107,
R150). -/

namespace Sys2Proof.Machine

/-! ### The Line Interface (R104, R107) -/

section
variable {w : Prop} {s : State} (h : StationHeld w s) (notHalted : s.stc.station ≠ .halted)
include h notHalted

theorem StationHeld.withLif {l : Lif} (item : ItemSound l) (on : l.receiver ≠ .off)
    (sent : ∀ f, l.sent = some (.stream f) → f.kind = .found → s.stc.station = .founding) : StationHeld w (s.setLif l) :=
  ⟨⟨h.mid.core.withLif notHalted item on sent, h.mid.attempt, h.mid.table, h.mid.commit⟩, h.stream⟩

theorem StationHeld.lifReport (heard : Heard) : StationHeld w (s.lifReport heard) := by
  have on : s.lif.receiver ≠ .off := fun e => notHalted (h.mid.core.off.mpr e)
  cases heard with
  | profile p =>
    rw [State.lifReport]
    split
    · exact h
    · exact (h.withLif (l := { s.lif with profileReported := true }) notHalted h.mid.core.item on h.mid.core.sent).offer _
  | duplicate =>
    rw [State.lifReport]
    split
    · exact h
    · exact (h.withLif (l := { s.lif with duplicateReported := true }) notHalted h.mid.core.item on h.mid.core.sent).offer _
  | stream f => exact h
  | transfer t => exact h
  | fault => exact h

theorem StationHeld.itemTaken : StationHeld w s.itemTaken :=
  h.withLif notHalted (Nat.zero_le _) nofun nofun

end

/-! ### The Commit Unit (R67, R83) -/

section
variable {w : Prop} {s : State} (h : StationHeld w s)
include h

theorem StationHeld.listenItem (heard : Heard) (found : Bool) : StationHeld w (s.listenItem heard found) := by
  cases heard with
  | stream f =>
    rw [State.listenItem]
    split
    · exact h
    · exact h.hear f
  | transfer t => exact h
  | fault => exact h
  | profile p => exact h
  | duplicate => exact h

theorem StationHeld.replayingItem (heard : Heard) (r : Word32) : StationHeld w (s.replayingItem heard r) := by
  cases heard with
  | stream f =>
    rw [State.replayingItem]
    split
    · exact h.ignoreFound f r
    · exact h.hear f
  | transfer t => exact h
  | fault => exact h
  | profile p => exact h
  | duplicate => exact h

variable {heard : Heard} (fits : ItemFits w s.stc.config.n.toNat heard) {sent : Option OwnItem}
include fits

theorem StationHeld.replicaItem (resolves : Resolves s.stc.station s.xfu.phase)
    (notFound : ∀ o, sent = some o → o.kind ≠ .stream .found) (own : Bool) (r : Word32) :
    StationHeld w (s.replicaItem heard own sent r) := by
  cases heard with
  | stream f =>
    rw [State.replicaItem]
    split
    · exact h.ignoreFound f r
    · next other => exact (h.hear f).resolve resolves (fits.stream f rfl) other own
  | transfer t => exact h
  | fault => exact h.cmuHole resolves notFound
  | profile p => exact h.cmuHole resolves notFound
  | duplicate => exact h.cmuHole resolves notFound

/-- The loopback of the own FOUND, which is then no longer under way (R83, R145). -/
theorem StationHeld.foundLoopback (state : s.stc.station = .founding) (free : s.lif.sent = none) (own : Bool) :
    StationHeld w (s.foundLoopback heard own) ∧ (s.foundLoopback heard own).xfu = s.xfu := by
  have idle : s.xfu.phase = .idle := h.mid.attempt.idle (by simp [state]) (by simp [state])
  have history : ¬ Resolves s.stc.station s.xfu.phase := by simp [Resolves, state, idle]
  have leave : s.stc.leave = .idle := h.mid.core.leave (by simp [state])
  have joiner := h.mid.attempt.joiner idle
  have enters : ∀ (st : StationState) (note : Note), st ≠ .halted →
      CoreSound (s.ntq.offer note) s.trk s.lif { s.stc with station := st } := fun st note into =>
    (h.mid.core.withQueue (h.mid.core.queue.offer note)).move (by simp [state]) into (fun _ => free) fun _ => leave
  have founded : ∀ f : StreamFrame, f.wf s.stc.config.n.toNat = true → StationHeld w (s.founded f) := fun f wf =>
    ⟨⟨enters .member _ nofun, .ofCleared joiner (fun e => absurd rfl e) nofun nofun,
      ⟨h.mid.table.kept, h.mid.table.roster, fun e => by simp [State.founded, idle] at e, fun not => absurd (.inl rfl) not⟩,
      ⟨⟨Nat.zero_le _, Nat.zero_le _, by simp [State.founded, Cmu.cleared]⟩, fun p e => by cases e; exact wf⟩⟩,
      ⟨fun not => absurd (.inl rfl) not, fun m e _ => .inl rfl⟩⟩
  have collided : StationHeld w s.collided :=
    ⟨.unattached (enters .listening _ nofun) h.mid.commit nofun nofun joiner
      (h.mid.attempt.release_of_other (by simp [state]) (by simp [state])) (h.mid.table.cleared history),
      .of_cleared (h.stream.cleared history) _ _⟩
  unfold State.foundLoopback
  split
  · cases heard with
    | stream f =>
      dsimp only
      split
      · exact ⟨founded f (fits.stream f rfl), rfl⟩
      · exact ⟨collided, rfl⟩
    | transfer t => exact ⟨collided, rfl⟩
    | fault => exact ⟨collided, rfl⟩
    | profile p => exact ⟨collided, rfl⟩
    | duplicate => exact ⟨collided, rfl⟩
  · exact ⟨h, rfl⟩

theorem StationHeld.cmuItem (free : s.lif.sent = none)
    (notFound : s.stc.station ≠ .founding → ∀ o, sent = some o → o.kind ≠ .stream .found) (own : Bool) (r : Word32) :
    StationHeld w (s.cmuItem heard own sent r) ∧ (s.stc.station = .founding → (s.cmuItem heard own sent r).xfu = s.xfu) := by
  cases state : s.stc.station with
  | founding =>
    obtain ⟨held, kept⟩ := h.foundLoopback fits state free own
    simp only [State.cmuItem, state]
    exact ⟨held, fun _ => kept⟩
  | halted =>
    simp only [State.cmuItem, state]
    exact ⟨h, nofun⟩
  | member =>
    simp only [State.cmuItem, state]
    exact ⟨h.replicaItem fits (.inl state) (notFound (by simp [state])) own r, nofun⟩
  | leaving =>
    simp only [State.cmuItem, state]
    exact ⟨h.replicaItem fits (.inr (.inl state)) (notFound (by simp [state])) own r, nofun⟩
  | loading =>
    refine ⟨?_, nofun⟩
    simp only [State.cmuItem, state]
    split
    · next phase => exact h.replicaItem fits (.inr (.inr (.inr phase))) (notFound (by simp [state])) own r
    · exact h.replayingItem heard r
    · exact h.listenItem heard false
    · exact h.listenItem heard false
    · exact h.listenItem heard false
  | listening =>
    simp only [State.cmuItem, state]
    exact ⟨h.listenItem heard true, nofun⟩
  | joining =>
    simp only [State.cmuItem, state]
    exact ⟨h.listenItem heard false, nofun⟩
  | detached =>
    simp only [State.cmuItem, state]
    exact ⟨h.listenItem heard false, nofun⟩

end

/-! ### The delivery (R105) -/

section
variable {w : Prop} {s : State} (h : StationHeld w s)
include h

/-- The loopback of the own LEAVE (R150). -/
theorem StationHeld.leaveLoopback (heard : Heard) (sent : Option OwnItem) : StationHeld w (s.leaveLoopback heard sent) := by
  unfold State.leaveLoopback
  split
  · next leaves =>
    simp only [Bool.and_eq_true, decide_eq_true_eq] at leaves
    exact ⟨h.mid.withLeave leaves.1.2 _, h.stream⟩
  · exact h

/-- A FOUND of the own is heard only in FOUNDING (R145). -/
theorem StationHeld.ownSent_notFound (notFounding : s.stc.station ≠ .founding) (o : OwnItem) (own : s.ownSent = some o) :
    o.kind ≠ .stream .found := by
  intro found
  unfold State.ownSent at own
  split at own
  · cases sent : s.lif.sent with
    | none => rw [sent] at own; cases own
    | some f =>
      rw [sent] at own
      cases own
      cases f with
      | stream g => exact notFounding (h.mid.core.sent g sent (FrameKind.stream.inj found))
      | transfer t => cases found
  · cases own

omit h in
/-- An item heard passed the checks of R106. -/
theorem State.itemFits (waits : w → ∀ f, s.heard = .transfer f → ∀ x, .record x ∈ f.items → headWaits x) :
    ItemFits w s.stc.config.n.toNat s.heard :=
  ⟨fun g e => (State.heard_ofFrame (f := .stream g) e).1,
    fun t e => ⟨(State.heard_ofFrame (f := .transfer t) e).1, fun hw => waits hw t e⟩⟩

theorem StationHeld.deliver (notHalted : s.stc.station ≠ .halted)
    (waits : w → ∀ f, s.heard = .transfer f → ∀ x, .record x ∈ f.items → headWaits x) : StationHeld w s.deliver := by
  obtain ⟨l, q, report⟩ : ∃ l q, s.lifReport s.heard = (s.setLif l).setNtq q := ⟨_, _, State.lifReport_eq s s.heard⟩
  have reported := h.lifReport notHalted s.heard
  have stc : (s.lifReport s.heard).stc = s.stc := by rw [report]; rfl
  have tracked := Tracked.trackItem (s := s.lifReport s.heard) (by rwa [stc]) s.heard s.lif.item.own
  have taken : ((s.lifReport s.heard).trackItem s.heard s.lif.item.own).itemTaken.stc = s.stc := by
    rw [← stc]; exact tracked.stc
  have held := (reported.tracked (by rwa [stc]) tracked).itemTaken (by rw [tracked.stc, stc]; exact notHalted)
  have free : ((s.lifReport s.heard).trackItem s.heard s.lif.item.own).itemTaken.lif.sent = none := rfl
  dsimp only [State.deliver]
  generalize ((s.lifReport s.heard).trackItem s.heard s.lif.item.own).itemTaken = t at held taken free ⊢
  have fits : ItemFits w t.stc.config.n.toNat s.heard := taken ▸ State.itemFits waits
  have notFound : t.stc.station ≠ .founding → ∀ o, s.ownSent = some o → o.kind ≠ .stream .found := fun e =>
    h.ownSent_notFound (by rwa [taken] at e)
  obtain ⟨committed, founding⟩ := held.cmuItem fits free notFound s.lif.item.own s.trk.rotation
  refine (committed.xfuItem (heard := s.heard) ?_ (fun phase => ?_) s.lif.item.own).leaveLoopback s.heard s.ownSent
  · rw [(Inside.cmuItem t _ _ _ _).config]
    exact fits
  · refine notFound fun e => phase ?_
    rw [founding e]
    exact held.mid.attempt.idle (by simp [e]) (by simp [e])

end

end Sys2Proof.Machine
end

section
/-! PROOFS. The host's commands and the resets keep the invariant (R142 to R155, R157 to R168, R177 to R183). -/

namespace Sys2Proof.Machine

section
variable {w : Prop} {s : State} (h : StationHeld w s)
include h

theorem StationHeld.unlessHeld {t : State} (held : StationHeld w t) : StationHeld w (s.unlessHeld t) := by
  unfold State.unlessHeld
  split
  · exact h
  · exact held

theorem StationHeld.answer (code : Word16) (r : Result) : StationHeld w (s.answer code r) :=
  h.of_blocks h.mid.core.queue rfl rfl rfl rfl rfl rfl

theorem StationHeld.setLpt (p : Lpt) : StationHeld w (s.setLpt p) :=
  h.of_blocks h.mid.core.queue rfl rfl rfl rfl rfl rfl

theorem StationHeld.setPins (p : Pins) : StationHeld w (s.setPins p) :=
  h.of_blocks h.mid.core.queue rfl rfl rfl rfl rfl rfl

theorem StationHeld.setRqu (u : Rqu) : StationHeld w (s.setRqu u) :=
  h.of_blocks h.mid.core.queue rfl rfl rfl rfl rfl rfl

theorem StationHeld.withNtq {q : Ntq} (queue : QueueSound q) : StationHeld w (s.setNtq q) :=
  h.of_blocks queue rfl rfl rfl rfl rfl rfl

/-- A station that is no replica, joiner or member holds no attempt, image or history (R17, R86, R119). -/
theorem StationHeld.unattached (state : s.stc.station = .halted ∨ s.stc.station = .listening ∨ s.stc.station = .founding
    ∨ s.stc.station = .detached) : s.xfu.clearJoiner = s.xfu ∧ s.xfu.release = s.xfu ∧ s.tbu = Tbu.cleared
      ∧ s.cmu = s.cmu.clearStream := by
  have other : s.stc.station ≠ .joining ∧ s.stc.station ≠ .loading ∧ s.stc.station ≠ .member ∧ s.stc.station ≠ .leaving := by
    rcases state with e | e | e | e <;> simp [e]
  obtain ⟨notJoining, notLoading, notMember, notLeaving⟩ := other
  have idle := h.mid.attempt.idle notJoining notLoading
  have none : ¬ Resolves s.stc.station s.xfu.phase := by simp [Resolves, notMember, notLeaving, idle]
  exact ⟨h.mid.attempt.joiner idle, h.mid.attempt.release_of_other notMember notLeaving, h.mid.table.cleared none,
    h.stream.cleared none⟩

/-! ### ENABLE, LEAVE and DISABLE (R143, R148, R154) -/

theorem StationHeld.enableFromHalted (state : s.stc.station = .halted) (valid : configValid s.stc.config s.number = true) :
    StationHeld w s.enableFromHalted := by
  obtain ⟨size, limit, number⟩ := (configValid_iff _ _).mp valid
  have leave : s.stc.leave = .idle := h.mid.core.leave (by simp [state])
  refine ⟨.unattached ⟨h.mid.core.queue.offer _, ⟨Nat.zero_le _, nofun⟩, Nat.zero_le _, ⟨nofun, fun off => ?_⟩, nofun,
    fun _ => ⟨size, limit, number⟩, fun _ => leave, fun _ e => by cases e⟩ (.clear Cmu.cleared _) nofun nofun rfl rfl rfl,
    .clear Cmu.cleared _ _⟩
  have on : (Lif.enabled s.stc.config s.pins.lineActive).receiver ≠ .off := by
    unfold Lif.enabled
    dsimp only
    split <;> nofun
  exact absurd off on

theorem StationHeld.enableFromDetached (state : s.stc.station = .detached) : StationHeld w s.enableFromDetached := by
  have notHalted : s.stc.station ≠ .halted := by simp [state]
  have on : s.lif.receiver ≠ .off := fun e => notHalted (h.mid.core.off.mpr e)
  have leave : s.stc.leave = .idle := h.mid.core.leave (by simp [state])
  have lif := h.mid.core.withLif (l' := { s.lif with
    profile := some (profileOf s.stc.config), profileReported := false, duplicateReported := false }) notHalted h.mid.core.item on
    h.mid.core.sent
  refine ⟨.unattached (((lif.withTrk notHalted h.mid.core.tracker.enterListening).withQueue (h.mid.core.queue.offer _)).move
    notHalted nofun (fun e => ?_) fun _ => leave) ?_ nofun nofun rfl rfl rfl, .of_cleared rfl _ _⟩
  · rw [state] at e; cases e
  · exact ⟨(CommitHeld.clear s.cmu s.stc.config.n.toNat).counts, nofun⟩

theorem StationHeld.hostEnable : StationHeld w s.hostEnable := by
  unfold State.hostEnable
  split
  · next state =>
    split
    · next valid => exact (h.enableFromHalted state valid).answer _ _
    · exact h.answer _ _
  · next state => exact (h.enableFromDetached state).answer _ _
  · exact h.answer _ _
  · exact h.answer _ _
  · exact h.answer _ _
  · exact h.answer _ _
  · exact h.answer _ _
  · exact h.answer _ _

theorem StationHeld.hostLeave : StationHeld w s.hostLeave := by
  unfold State.hostLeave
  split
  · next state =>
    have resolves : Resolves .leaving s.xfu.phase := .inr (.inl rfl)
    have idle : s.xfu.phase = .idle := h.mid.attempt.idle (by simp [state]) (by simp [state])
    have queue : QueueSound ((s.abortOutgoing s.trk.rotation).ntq.offer (stateNote .leaving .leaving none s.trk.rotation)) :=
      ((Inside.abortOutgoing s s.trk.rotation).queue h.mid.core.queue).offer _
    refine StationHeld.answer (s := ((s.abortOutgoing s.trk.rotation).setStc { s.stc with leave := .draining }).enter
      .leaving .leaving none s.trk.rotation) ⟨⟨(h.mid.core.withQueue queue).move (by simp [state]) nofun (fun e => ?_) (absurd rfl),
      { h.mid.attempt with awaiting := ⟨nofun, fun e => ?_⟩, loading := ⟨nofun, fun e => ?_⟩, donor := fun _ e => absurd rfl e },
      ⟨h.mid.table.kept, h.mid.table.roster, h.mid.table.entry, fun not => absurd resolves not⟩, h.mid.commit⟩,
      ⟨fun not => absurd resolves not, fun _ _ _ => .inr rfl⟩⟩ _ _
    · rw [state] at e; cases e
    · have awaiting : s.xfu.phase = .awaiting := e
      rw [idle] at awaiting; cases awaiting
    · have loading : s.xfu.phase = .gathering ∨ s.xfu.phase = .replaying ∨ s.xfu.phase = .confirming := e
      simp [idle] at loading
  · exact h.answer _ _

theorem StationHeld.hostDisable : StationHeld w s.hostDisable := by
  unfold State.hostDisable
  split
  · exact h.answer _ _
  · have queue : QueueSound (s.disableTaken.ntq) := by
      rw [State.disableTaken_ntq]
      exact (h.mid.core.queue.offers _).offer _
    exact StationHeld.answer (.ofHalted rfl rfl queue rfl rfl (Nat.zero_le _) (fun _ e => by cases e) rfl rfl rfl rfl rfl) _ _

omit h in
theorem StationHeld.hostPortReset : StationHeld w s.hostPortReset :=
  .ofHalted rfl rfl ⟨Nat.zero_le _, Nat.zero_le _, absurd rfl⟩ rfl rfl (Nat.zero_le _) (fun _ e => by cases e) rfl rfl rfl rfl rfl

omit h in
theorem StationHeld.pinResetLow (sn : BitVec 4) : StationHeld w (s.pinResetLow sn) :=
  .ofHalted rfl rfl ⟨Nat.zero_le _, Nat.zero_le _, absurd rfl⟩ rfl rfl (Nat.zero_le _) (fun _ e => by cases e) rfl rfl rfl rfl rfl

/-! ### Requests, records and words (R157, R167, R177, R178, R182) -/

theorem StationHeld.hostPost : StationHeld w s.hostPost := by
  unfold State.hostPost
  split
  · exact (h.setRqu _).answer _ _
  · exact h.answer _ _

theorem StationHeld.hostCancel : StationHeld w s.hostCancel := by
  unfold State.hostCancel
  dsimp only
  split
  · exact ((h.setRqu _).offer _).answer _ _
  · split
    · exact h.answer _ _
    · exact h.answer _ _

theorem StationHeld.hostPop : StationHeld w s.hostPop := by
  unfold State.hostPop
  split
  · exact h.answer _ _
  · next n rest queue =>
    obtain ⟨places, lost, shows⟩ := h.mid.core.queue
    rw [queue, List.length_cons] at places
    exact (h.withNtq (q := { s.ntq with queue := rest, head := some n }) ⟨Nat.le_of_succ_le places, lost, shows⟩).answer _ _

theorem StationHeld.hostClearLost : StationHeld w s.hostClearLost :=
  (h.withNtq (q := { s.ntq with lost := 0, overflow := false }) ⟨h.mid.core.queue.1, Nat.zero_le _, absurd rfl⟩).answer _ _

theorem StationHeld.hostInquire : StationHeld w s.hostInquire := by
  unfold State.hostInquire
  split
  · split
    · exact h.answer _ _
    · exact (h.setLpt _).answer _ _
  · exact h.answer _ _

theorem StationHeld.hostCommand (code : Word16) : StationHeld w (s.hostCommand code) := by
  unfold State.hostCommand
  split_ifs with enable leave disable reset post cancel pop clear inquire
  · exact h.hostEnable
  · exact h.hostLeave
  · exact h.hostDisable
  · exact .hostPortReset
  · exact h.hostPost
  · exact h.hostCancel
  · exact h.hostPop
  · exact h.hostClearLost
  · exact h.hostInquire
  · exact h.setLpt _

/-- In HALTED the configuration is written while no block holds anything of the group (R182). -/
theorem StationHeld.writeConfig (word : Word16) : StationHeld w (s.writeConfig word) := by
  unfold State.writeConfig
  split
  · next state =>
    obtain ⟨joiner, donor, tbu, cmu⟩ := h.unattached (.inl state)
    obtain ⟨idle, trk⟩ := h.mid.core.still state
    exact StationHeld.setLpt (.ofHalted (s := s.setStc { s.stc with config := configOf word }) state
      (h.mid.core.leave (by simp [state])) h.mid.core.queue (h.mid.core.off.mp state) idle h.mid.core.item
      (fun f e found => by have := h.mid.core.sent f e found; rw [state] at this; cases this) trk cmu tbu joiner donor) _
  · exact h.setLpt _

theorem StationHeld.busWrite (a : BitVec 5) (word : Word16) : StationHeld w (s.busWrite a word) := by
  unfold State.busWrite
  split_ifs
  · exact h.writeConfig word
  · exact h.setLpt _
  · exact h.hostCommand word
  · exact h.setLpt _

end

end Sys2Proof.Machine
end

section
/-! PROOFS. Every step keeps the station sound: the starts of frames, the moments of the line and of the part's own timing,
and the step itself (R88 to R100, R109, R110, R120, R135, R144). -/

namespace Sys2Proof.Machine

section
variable {w : Prop} {s : State} (h : StationHeld w s)
include h

theorem StationHeld.withTrk (notHalted : s.stc.station ≠ .halted) {t : Trk} (sound : TrackerSound t s.stc.config.n.toNat) :
    StationHeld w (s.setTrk t) :=
  ⟨⟨h.mid.core.withTrk notHalted sound, h.mid.attempt, h.mid.table, h.mid.commit⟩, h.stream⟩

theorem StationHeld.on (notHalted : s.stc.station ≠ .halted) : s.lif.receiver ≠ .off := fun e =>
  notHalted (h.mid.core.off.mpr e)

theorem StationHeld.notHalted_of_on (on : s.lif.receiver ≠ .off) : s.stc.station ≠ .halted := fun e =>
  on (h.mid.core.off.mp e)

/-! ### The starts of frames (R96, R109) -/

theorem StationHeld.startFrame (notHalted : s.stc.station ≠ .halted) {f : Frame}
    (founding : ∀ g, f = .stream g → g.kind = .found → s.stc.station = .founding) : StationHeld w (s.startFrame f) := by
  have lif : StationHeld w (s.setLif (startedLif s.lif f)) := by
    refine h.withLif notHalted (Nat.zero_le _) nofun fun g e => ?_
    cases e
    exact founding g rfl
  exact StationHeld.setPins (lif.withTrk (t := startedTrk s.trk) notHalted ⟨h.mid.core.tracker.1, nofun⟩) _

/-- The serving plan of a turn; only a donor has an image (R135). -/
theorem StationHeld.withPlan {p : Option ServePlan} (holds : p = none ∨ s.xfu.image.isSome ∨ s.xfu.plan.isSome) :
    StationHeld w (s.setXfu { s.xfu with plan := p }) := by
  by_cases state : s.stc.station = .member ∨ s.stc.station = .leaving
  · exact h.withXfu (h.mid.attempt.serving (i := s.xfu.image) (k := s.xfu.joinerWanted) state) rfl
  · obtain ⟨notMember, notLeaving⟩ := not_or.mp state
    obtain ⟨image, -, plan⟩ := h.mid.attempt.donor notMember notLeaving
    have none : p = none := by simpa [image, plan] using holds
    exact h.withXfu (h.mid.attempt.counted h.mid.attempt.bounds.1 (fun _ => rfl) (.inr none)) rfl

theorem StationHeld.sendReplica (notHalted : s.stc.station ≠ .halted) {kind : StreamKind} (notFound : kind ≠ .found)
    (ops : List Request) : StationHeld w (s.sendReplica kind ops) := by
  have holds : s.xfu.newPlan = none ∨ s.xfu.image.isSome ∨ s.xfu.plan.isSome := by
    unfold Xfu.newPlan
    cases s.xfu.image with
    | none => exact .inl rfl
    | some img => exact .inr (.inl rfl)
  refine (h.withPlan holds).startFrame notHalted fun g e found => ?_
  cases e
  exact absurd found notFound

theorem StationHeld.sendTransfer {p : ServePlan} (plan : s.xfu.plan = some p) (notHalted : s.stc.station ≠ .halted) :
    StationHeld w (s.sendTransfer p) := by
  have planned : ∀ p, StationHeld w (s.setXfu { s.xfu with plan := p }) := fun _ => h.withPlan (.inr (.inr (by simp [plan])))
  exact (planned _).startFrame (by exact notHalted) (by intro g e; cases e)

theorem StationHeld.sendMember (state : s.stc.station = .member) : StationHeld w s.sendMember := by
  have notHalted : s.stc.station ≠ .halted := by simp [state]
  unfold State.sendMember
  split
  · exact (h.setRqu (s.rqu.assemble s.nextId)).sendReplica notHalted (by simp) _
  · exact h.sendReplica notHalted (by simp) _

theorem StationHeld.sendLeaving (state : s.stc.station = .leaving) : StationHeld w s.sendLeaving := by
  have notHalted : s.stc.station ≠ .halted := by simp [state]
  unfold State.sendLeaving
  split
  · exact StationHeld.sendReplica (s := s.setStc { s.stc with leave := .sent }) ⟨h.mid.withLeave state _, h.stream⟩ notHalted
      (by simp) _
  · exact h.sendReplica notHalted (by simp) _

theorem StationHeld.sendLoading (state : s.stc.station = .loading) : StationHeld w s.sendLoading :=
  h.startFrame (by simp [state]) fun g e found => by cases e; cases found

/-- An attempt begins, or begins anew: AWAITING, with nothing queued (R120). -/
theorem StationHeld.joinStarts (state : s.stc.station = .listening ∨ s.stc.station = .joining) {q : Ntq} (queue : QueueSound q)
    (id : FrameId) : StationHeld w (((s.setNtq q).setStc { s.stc with station := .joining }).setXfu (s.xfu.joinStarts id)) := by
  have notHalted : s.stc.station ≠ .halted := by rcases state with e | e <;> simp [e]
  have notFounding : s.stc.station ≠ .founding := by rcases state with e | e <;> simp [e]
  have notMember : s.stc.station ≠ .member := by rcases state with e | e <;> simp [e]
  have notLeaving : s.stc.station ≠ .leaving := by rcases state with e | e <;> simp [e]
  have none : ¬ Resolves s.stc.station s.xfu.phase := by
    have phase : s.xfu.phase = .idle ∨ s.xfu.phase = .awaiting :=
      state.imp (fun e => h.mid.attempt.idle (by simp [e]) (by simp [e])) h.mid.attempt.awaiting.mp
    rcases phase with e | e <;> simp [Resolves, notMember, notLeaving, e]
  have none' : ¬ Resolves .joining .awaiting := by simp [Resolves]
  exact ⟨⟨(h.mid.core.withQueue queue).move notHalted nofun (fun e => absurd e notFounding) fun _ => h.mid.core.leave notLeaving,
    { bounds := ⟨Nat.zero_le _, Nat.zero_le _⟩, awaiting := ⟨fun _ => rfl, fun _ => rfl⟩, loading := ⟨nofun, nofun⟩
      donor := fun _ _ => h.mid.attempt.donor notMember notLeaving
      joiner := nofun, queued := nofun, slots := h.mid.attempt.slots },
    ⟨h.mid.table.kept, h.mid.table.roster, nofun, fun _ => h.mid.table.cleared none⟩, h.mid.commit⟩,
    .of_cleared (h.stream.cleared none) _ _⟩

theorem StationHeld.startTurn : StationHeld w s.startTurn := by
  have join : ∀ (t : State), StationHeld w (t.setXfu (t.xfu.joinStarts t.nextId)) → t.stc.station = .joining →
      StationHeld w t.sendJoin := fun t held state =>
    held.startFrame (by simp [state]) fun g e found => by cases e; cases found
  unfold State.startTurn
  cases state : s.stc.station with
  | halted => exact h
  | founding => exact h
  | detached => exact h
  | listening =>
    dsimp only
    split
    · exact join (s.enter .joining .joinSent none s.trk.rotation) (h.joinStarts (.inl state) (h.mid.core.queue.offer _) _) rfl
    · exact h
  | joining =>
    dsimp only
    split
    · have same : (s.setNtq s.ntq).setStc { s.stc with station := .joining } = s := by rw [← state]; rfl
      exact join s (same ▸ h.joinStarts (.inr state) h.mid.core.queue s.nextId) state
    · exact h
  | loading =>
    dsimp only
    split
    · exact h.sendLoading state
    · exact h.sendLoading state
    · exact h.sendReplica (by simp [state]) (by simp) _
    · exact h
    · exact h
  | member => exact h.sendMember state
  | leaving => exact h.sendLeaving state

theorem StationHeld.frameMoment : StationHeld w s.frameMoment := by
  unfold State.frameMoment
  split
  · next quiet =>
    have notHalted : s.stc.station ≠ .halted := h.notHalted_of_on (by simp [quiet])
    split
    · exact h
    · exact h.startTurn
    · split
      · exact h
      · next p plan => exact h.sendTransfer plan notHalted
  · exact h

/-- FOUNDING is entered from LISTENING and its FOUND sent (R99, R145). -/
theorem StationHeld.beginFounding (state : s.stc.station = .listening) : StationHeld w s.beginFounding := by
  obtain ⟨joiner, donor, tbu, cmu⟩ := h.unattached (.inr (.inl state))
  have entered : StationHeld w (s.enter .founding .founding none s.trk.rotation) :=
    ⟨.unattached ((h.mid.core.withQueue (h.mid.core.queue.offer _)).move (by simp [state]) nofun
      (fun e => absurd (state.symm.trans e) nofun) fun _ => h.mid.core.leave (by simp [state])) h.mid.commit nofun nofun
      joiner donor tbu, .of_cleared cmu _ _⟩
  exact entered.startFrame nofun fun _ _ _ => rfl

/-! ### The line (R88, R104, R109, R110) -/

omit h in
theorem LineItem.collect_sound (i : LineItem) (bits : List Bool) : (i.collect bits).bits.length ≤ 8 * Config.longestItem :=
  List.length_take_le _ _

theorem StationHeld.activityStarts : StationHeld w s.activityStarts := by
  unfold State.activityStarts
  dsimp only
  split
  · exact h.setPins _
  · next quiet =>
    have notHalted : s.stc.station ≠ .halted := h.notHalted_of_on (by simp [quiet])
    have lif : StationHeld w ((s.setPins { s.pins with lineActive := true }).setLif
        { s.lif with receiver := .active, item := LineItem.blank }) :=
      (h.setPins { s.pins with lineActive := true }).withLif notHalted (Nat.zero_le _) nofun h.mid.core.sent
    exact lif.withTrk (t := s.trk.stopTimers) notHalted ⟨h.mid.core.tracker.1, nofun⟩
  · exact h.setPins _
  · next trailing =>
    have notHalted : s.stc.station ≠ .halted := h.notHalted_of_on (by simp [trailing])
    refine (h.setPins { s.pins with lineActive := true }).withLif notHalted ?_ ?_ ?_
    · exact h.mid.core.item
    · nofun
    · exact h.mid.core.sent

theorem StationHeld.activityEnds (bits : List Bool) : StationHeld w (s.activityEnds bits) := by
  unfold State.activityEnds
  dsimp only
  split
  · exact h
  · split
    · next active =>
      have notHalted : s.stc.station ≠ .halted := h.notHalted_of_on (by simp [active])
      refine (h.setPins { s.pins with lineActive := false }).withLif notHalted ?_ ?_ ?_
      · exact s.lif.item.collect_sound bits
      · nofun
      · exact h.mid.core.sent
    · exact h.setPins _
    · exact h.setPins _
    · exact h.setPins _

/-- The transmitter ends, and the item with it (R109, R110). -/
theorem StationHeld.transmitterEnds (sending : s.lif.transmitter = .sending) {i : LineItem}
    (item : i.bits.length ≤ 8 * Config.longestItem) : StationHeld w (s.setLif { s.lif with transmitter := .idle, item := i }) := by
  have notHalted : s.stc.station ≠ .halted := fun e => by
    have := (h.mid.core.still e).1
    rw [sending] at this
    cases this
  exact h.withLif notHalted item (h.on notHalted) h.mid.core.sent

theorem StationHeld.sentWhole (sending : s.lif.transmitter = .sending) : StationHeld w s.sentWhole := by
  unfold State.sentWhole
  split
  · exact h.transmitterEnds sending h.mid.core.item
  · exact h.transmitterEnds sending (s.lif.item.collect_sound _)

/-! ### The part's own timing (R88, R92, R98) -/

theorem StationHeld.skipTurn (notHalted : s.stc.station ≠ .halted) : StationHeld w s.skipTurn := by
  have passed := h.tracked notHalted .passTurn
  have stc : s.passTurn.stc = s.stc := Tracked.passTurn.stc
  exact passed.withTrk (by rwa [stc]) ⟨passed.mid.core.tracker.1, fun k e => by cases e; exact Nat.zero_le _⟩

theorem StationHeld.loseAlignment (notHalted : s.stc.station ≠ .halted) : StationHeld w s.loseAlignment := by
  unfold State.loseAlignment
  dsimp only
  split
  · exact h.withTrk notHalted h.mid.core.tracker
  · exact h.withTrk notHalted h.mid.core.tracker

theorem StationHeld.idle : StationHeld w s.idle := by
  have ticked : StationHeld w { s with clock := s.clock + 1 } := h.of_blocks h.mid.core.queue rfl rfl rfl rfl rfl rfl
  unfold State.idle
  dsimp only
  split
  · next quiet =>
    have notHalted : s.stc.station ≠ .halted := h.notHalted_of_on (by simp [quiet])
    refine ticked.withTrk notHalted ⟨h.mid.core.tracker.1, fun k e => ?_⟩
    obtain ⟨n, -, rfl⟩ := Option.map_eq_some_iff.mp e
    exact Nat.min_le_right _ _
  · exact ticked

/-! ### The step -/

theorem StationHeld.exec {c : Instr} {t : State} (waits : w → ∀ f, s.heard = .transfer f → ∀ x, .record x ∈ f.items → headWaits x)
    (run : exec c s = .next t) : StationHeld w t := by
  cases c with
  | enable => cases run; exact h.unlessHeld h.hostEnable
  | leave => cases run; exact h.unlessHeld h.hostLeave
  | disable => cases run; exact h.unlessHeld h.hostDisable
  | portReset => cases run; exact h.unlessHeld .hostPortReset
  | post => cases run; exact h.unlessHeld h.hostPost
  | cancel => cases run; exact h.unlessHeld h.hostCancel
  | pop => cases run; exact h.unlessHeld h.hostPop
  | clearLost => cases run; exact h.unlessHeld h.hostClearLost
  | inquire => cases run; exact h.unlessHeld h.hostInquire
  | badCmd code => cases run; exact h.unlessHeld (h.hostCommand code)
  | rothiRead => cases run; exact h.unlessHeld (h.setLpt _)
  | configWrite word => cases run; exact h.unlessHeld (h.writeConfig word)
  | irqenWrite word => cases run; exact h.unlessHeld (h.setLpt _)
  | registerWrite a word => cases run; exact h.unlessHeld (h.busWrite a word)
  | pinReset sn => cases run; exact .pinResetLow sn
  | activityBegins =>
    cases run
    split
    · exact h.setPins _
    · exact h.activityStarts
  | itemDelivery =>
    cases run
    refine h.unlessHeld ?_
    split
    · next trailing =>
      have notHalted : s.stc.station ≠ .halted := h.notHalted_of_on (by simp [trailing])
      exact h.deliver notHalted waits
    · exact h
  | skipPoint =>
    cases run
    refine h.unlessHeld ?_
    split
    · next arises =>
      refine h.skipTurn fun e => ?_
      simp [State.followsTurns, e] at arises
    · exact h
  | listenWindowExpiry =>
    cases run
    refine h.unlessHeld ?_
    split
    · next arises => exact h.beginFounding arises.1
    · exact h
  | frameStart =>
    cases run
    refine h.unlessHeld ?_
    split
    · exact h
    · exact h.frameMoment
  | transmissionEnd =>
    cases run
    refine h.unlessHeld ?_
    split
    · next sending => exact h.sentWhole sending
    · exact h
  | loopbackMismatch =>
    cases run
    refine h.unlessHeld ?_
    split
    · next sending => exact h.transmitterEnds sending h.mid.core.item
    · exact h
  | alignmentLoss =>
    cases run
    refine h.unlessHeld ?_
    split
    · next arises =>
      refine h.loseAlignment fun e => ?_
      simp [StationState.losesAlignment, e] at arises
    · exact h
  | joinStall =>
    cases run
    refine h.unlessHeld ?_
    split
    · next arises =>
      exact .joinFail h.mid.core h.mid.attempt
        (arises.1.imp h.mid.attempt.awaiting.mpr fun e => h.mid.attempt.loading.mpr (.inl e)) _ _
    · exact h
  | replayEntry =>
    cases run
    refine h.unlessHeld ?_
    split
    · next arises => exact h.replayNext arises.2
    · exact h
  | activityStops bits =>
    cases run
    split
    · exact h.setPins _
    · exact h.activityEnds bits
  | resetRelease => cases run; exact h.setPins _

theorem StationHeld.step {t : State} (waits : w → ∀ f, s.heard = .transfer f → ∀ x, .record x ∈ f.items → headWaits x)
    (run : step s = .next t) : StationHeld w t := by
  unfold Machine.step at run
  split at run
  · cases run
    exact h.idle
  · next c rest _ =>
    exact StationHeld.exec (s := s.setPending rest) (h.of_blocks h.mid.core.queue rfl rfl rfl rfl rfl rfl) waits run

end

/-- Settles O59: the invariant by blocks, without and with the head waiters. -/
theorem everyStepKeepsTheStationSound : Obligations.EveryStepKeepsTheStationSound := by
  refine ⟨fun s t sound run => ?_, fun s t sound heads waits run => ?_⟩
  · exact ((StationHeld.of_sound (w := False) sound False.elim).step False.elim run).sound
  · exact ((StationHeld.of_sound (w := True) sound fun _ => heads).step (fun _ => waits) run).waits trivial

end Sys2Proof.Machine
end
